-- ==== Sys2Proof/Word.lean ====
section
/-! DEFINITION. The value types of the block (00_scope.md R9: every value is unsigned, a byte is 8 bits). -/

namespace Sys2Proof

/-- A byte of the link or of a buffer (R9). -/
abbrev Byte := BitVec 8

/-- A 16-bit quantity: the CRC (R61) and the buffer sizes (R32). -/
abbrev Half := BitVec 16

/-- A 32-bit quantity: ticks, timeouts, file offsets (R32, R36, R45). -/
abbrev Word := BitVec 32

end Sys2Proof
end

