-- ==== Sys2Proof/Config.lean ====
section
/-! DEFINITION. What an embedding of the block fixes (the parameters of 00_scope.md R8) and the free values
(93_implementation_defined.md): constants without a body, so that nothing can be proved about what they are. -/

namespace Sys2Proof

/-- The finish reasons (10_state.md R30, 60_exceptions.md R272), in the spec's order. -/
inductive Reason where
  | success
  | timeout
  | remoteTermination
  | headerReceiveError
  | headerParseError
  | packetProcessingError
  | endSequenceReceiveError
deriving DecidableEq, Repr, Inhabited

/-- The parameters that R8 calls arguments of the model (U13 to U16). No rule writes them. -/
structure Params where
  /-- `TX_RETRY_LIMIT`: sender attempts per step (R8, D26: 1 to 255). -/
  txRetryLimit : BitVec 8
  /-- `FILESIZE_LIMIT`: exclusive upper bound of an accepted file size (R8, D19). -/
  filesizeLimit : Nat
  /-- `RSN_HDR_EXHAUST`: reason stored when the retry budget runs out in RecvHeader (R8, D13). -/
  rsnHdrExhaust : Reason
  /-- `RSN_END_EXHAUST`: the same in RecvEotConfirm and RecvFinish (R8, D13). -/
  rsnEndExhaust : Reason
deriving DecidableEq, Repr

/-- The defaults of R8. -/
def Params.default : Params where
  txRetryLimit := 10#8
  filesizeLimit := 4294967295
  rsnHdrExhaust := .headerReceiveError
  rsnEndExhaust := .timeout

/-- The ranges of U13 to U16. That FILESIZE_LIMIT is at most 2^32 is the model's (log 26): TX_OFF has 32 bits (R36). -/
abbrev Params.legal (p : Params) : Prop :=
  1 ≤ p.txRetryLimit.toNat ∧ p.filesizeLimit ≤ 2 ^ 32 ∧ p.rsnHdrExhaust ≠ .success ∧
    (p.rsnEndExhaust = .timeout ∨ p.rsnEndExhaust = .endSequenceReceiveError)

/-! ### Free answers of the environment, once a script is used up (U7 to U11; log 2) -/

/-- Bytes that enter the link's pending input before a link-input transaction (U11). -/
opaque Config.freeArrival : Nat → List Byte
/-- Ticks that pass between two `Tick()` transactions, below 2^31 (R45, U9). -/
opaque Config.freeAdvance : Nat → BitVec 31
/-- How many bytes the link is ready to hand over in one `LinkRecv` (U8). -/
opaque Config.freeGrant : Nat → Nat
/-- The consumer's answer, true for accept (U10). -/
opaque Config.freeAnswer : Nat → Bool
/-- What the tick counter reads when the block leaves hardware reset (R45; log 11). -/
opaque Config.tickAtReset : Word

/-! ### Operand bytes that the host did not give (log 24) -/

/-- The byte at an offset of an operand beyond the bytes given for it. -/
opaque Config.freeOperandByte : Nat → Nat → Byte

/-! ### Registers that R50 and R311 leave unspecified after an INIT (log 8) -/

/-- `LAST` after INIT. -/
opaque Config.freeLast : Nat → Word
/-- `REASON` after INIT. -/
opaque Config.freeReason : Nat → Reason
/-- `CRC_ACC` after INIT. -/
opaque Config.freeCrcAcc : Nat → Half
/-- `TX_SEQ` after INIT. -/
opaque Config.freeTxSeq : Nat → Byte
/-- `TX_OFF` after INIT. -/
opaque Config.freeTxOff : Nat → Word
/-- `TX_ATTEMPT` after INIT. -/
opaque Config.freeTxAttempt : Nat → BitVec 8
/-- `TX_T0` after INIT. -/
opaque Config.freeTxT0 : Nat → Word

end Sys2Proof
end

