-- ==== Sys2Proof/Syntax.lean ====
section
/-! DEFINITION. The instructions: one constructor for each row of spec/opcode_table.json, seven wire symbols
(30_encoding.md R92) and six host operations (R103). -/

namespace Sys2Proof

/-- A wire symbol carries the fields of its unit as they stand on the wire (R90), unchecked; a host operation carries the
operands of its row (R103). -/
inductive Instr where
  /-- `SOH`: an F128 frame, 133 bytes (R90). -/
  | soh (seq nseq : Byte) (payload : List Byte) (crcHi crcLo : Byte)
  /-- `STX`: an F1K frame, 1029 bytes (R90). -/
  | stx (seq nseq : Byte) (payload : List Byte) (crcHi crcLo : Byte)
  /-- `EOT`: end of transmission (R92). -/
  | eot
  /-- `ACK`: acknowledge (R92). -/
  | ack
  /-- `NAK`: negative acknowledge (R92). -/
  | nak
  /-- `CAN`: cancel (R92). -/
  | can
  /-- `C`: the receiver asks for CRC16 mode (R92). -/
  | c
  /-- `INIT` (10_state.md R52); the operands are as wide as the registers they go to, but `use1k`, which R313 lets be illegal. -/
  | init (sessionTimeout ackTimeout charTimeout : Word) (use1k : Nat) (rxbufSize txbufSize : Half)
  /-- `RX_STEP` (42_receiver.md R170). -/
  | rxStep
  /-- `SEND_FILE` (43_sender.md R230). -/
  | sendFile (filename : List Byte) (filesize : Nat) (file : List Byte)
  /-- `CRC16` (40_crc16.md R130). -/
  | crc16 (seed : Half) (data : List Byte) (len : Nat)
  /-- `VALIDATE` (41_codec.md R140). -/
  | validate (buf : List Byte) (len : Nat) (expectedSeq : Byte)
  /-- `ENCODE` (41_codec.md R149). -/
  | encode (header seq fill : Byte) (payload : List Byte) (len : Nat)
deriving DecidableEq, Repr

end Sys2Proof
end

