-- ==== Sys2Proof/WellFormed.lean ====
section
/-! DEFINITION. Which instruction terms the spec's formats can express. -/

namespace Sys2Proof

/-- A frame's payload has exactly 128 or 1024 bytes (30_encoding.md R91). A host operation has every operand value: what the spec
refuses, it refuses when it runs, and a `len` beyond the bytes given is log 24. -/
def Instr.wellFormed : Instr → Bool
  | .soh _ _ payload _ _ => payload.length == 128
  | .stx _ _ payload _ _ => payload.length == 1024
  | .eot => true
  | .ack => true
  | .nak => true
  | .can => true
  | .c => true
  | .init _ _ _ _ _ _ => true
  | .rxStep => true
  | .sendFile _ _ _ => true
  | .crc16 _ _ _ => true
  | .validate _ _ _ => true
  | .encode _ _ _ _ _ => true

/-- The seven wire symbols of R92; the rest are host operations (R103). -/
def Instr.isWire : Instr → Bool
  | .soh _ _ _ _ _ => true
  | .stx _ _ _ _ _ => true
  | .eot => true
  | .ack => true
  | .nak => true
  | .can => true
  | .c => true
  | .init _ _ _ _ _ _ => false
  | .rxStep => false
  | .sendFile _ _ _ => false
  | .crc16 _ _ _ => false
  | .validate _ _ _ => false
  | .encode _ _ _ _ _ => false

end Sys2Proof
end

