-- ==== Sys2Proof/Decode.lean ====
section
/-! DEFINITION. Decoding of the two kinds of encoded object: units of the link's byte stream (30_encoding.md R90 to R95)
and requests on the host's command port (R103); then the encoder, written from the same tables. -/

namespace Sys2Proof

/-! ### Values of the wire symbols (30_encoding.md R92) -/

/-- SOH, "128-byte packet follows". -/
def symSOH : Byte := 0x01#8
/-- STX, "1024-byte packet follows". -/
def symSTX : Byte := 0x02#8
/-- EOT. -/
def symEOT : Byte := 0x04#8
/-- ACK. -/
def symACK : Byte := 0x06#8
/-- NAK. -/
def symNAK : Byte := 0x15#8
/-- CAN. -/
def symCAN : Byte := 0x18#8
/-- 'C', the ASCII code of the character (R9). -/
def symC : Byte := 0x43#8

/-- The payload size a header byte selects (R91, R95): none for a byte that opens no frame. -/
def payloadSize (b : Byte) : Option Nat :=
  if b = symSOH then some 128 else if b = symSTX then some 1024 else none

/-- The length of the unit a first byte opens: 0x01 gives 133 bytes, 0x02 gives 1029, every other value 1 (R95). -/
def unitLength (b : Byte) : Nat :=
  match payloadSize b with
  | some n => 3 + n + 2
  | none => 1

/-! ### The command port (R103) -/

/-- One request as the command port carries it: the 3-bit code and the operand lines, of which the code says which are
meant. `data` serves CRC16, VALIDATE and ENCODE. R103 gives the codes and names the operands; that they stand beside the
code on lines of their own is the model's (log 16). -/
structure Command where
  code : BitVec 3 := 0#3
  sessionTimeout : Word := 0#32
  ackTimeout : Word := 0#32
  charTimeout : Word := 0#32
  use1k : Nat := 0
  rxbufSize : Half := 0#16
  txbufSize : Half := 0#16
  filename : List Byte := []
  filesize : Nat := 0
  file : List Byte := []
  seed : Half := 0#16
  data : List Byte := []
  len : Nat := 0
  expectedSeq : Byte := 0#8
  header : Byte := 0#8
  seq : Byte := 0#8
  fill : Byte := 0#8
deriving DecidableEq, Repr

/-- CMD[2:0] of each host operation (R103). -/
def codeINIT : BitVec 3 := 0b001#3
/-- RX_STEP. -/
def codeRXSTEP : BitVec 3 := 0b010#3
/-- SEND_FILE. -/
def codeSENDFILE : BitVec 3 := 0b011#3
/-- CRC16. -/
def codeCRC16 : BitVec 3 := 0b100#3
/-- VALIDATE. -/
def codeVALIDATE : BitVec 3 := 0b101#3
/-- ENCODE. -/
def codeENCODE : BitVec 3 := 0b110#3

/-- Why bytes or a request are no instruction. -/
inductive Reject where
  /-- No byte at all. -/
  | noByte
  /-- A first byte outside R92's set (R100). -/
  | badSync
  /-- The stream ends inside a frame. -/
  | shortFrame
  /-- Bytes follow the unit. -/
  | trailingBytes
  /-- Command code 000: no operation requested (R103). -/
  | noOperation
  /-- Command code 111 (R103, R285). -/
  | unassigned
deriving DecidableEq, Repr

/-! ### Decoding -/

/-- The fields of a frame with an `n`-byte payload after its header byte (R90), and what follows the frame. -/
def decodeFrame (mk : Byte → Byte → List Byte → Byte → Byte → Instr) (n : Nat) (rest : List Byte) :
    Except Reject (Instr × List Byte) :=
  match rest with
  | seq :: nseq :: tl =>
    match tl.drop n with
    | hi :: lo :: more => .ok (mk seq nseq (tl.take n) hi lo, more)
    | _ => .error .shortFrame
  | _ => .error .shortFrame

/-- The unit at the head of a byte stream and the stream after it: the first byte alone decides format and length
(R90, R92, R95). -/
def decodeWire (bytes : List Byte) : Except Reject (Instr × List Byte) :=
  match bytes with
  | [] => .error .noByte
  | b :: rest =>
    if b = symSOH then decodeFrame .soh 128 rest
    else if b = symSTX then decodeFrame .stx 1024 rest
    else if b = symEOT then .ok (.eot, rest)
    else if b = symACK then .ok (.ack, rest)
    else if b = symNAK then .ok (.nak, rest)
    else if b = symCAN then .ok (.can, rest)
    else if b = symC then .ok (.c, rest)
    else .error .badSync

/-- The operation a request asks for (R103). -/
def decodeCommand (q : Command) : Except Reject Instr :=
  if q.code = codeINIT then
    .ok (.init q.sessionTimeout q.ackTimeout q.charTimeout q.use1k q.rxbufSize q.txbufSize)
  else if q.code = codeRXSTEP then .ok .rxStep
  else if q.code = codeSENDFILE then .ok (.sendFile q.filename q.filesize q.file)
  else if q.code = codeCRC16 then .ok (.crc16 q.seed q.data q.len)
  else if q.code = codeVALIDATE then .ok (.validate q.data q.len q.expectedSeq)
  else if q.code = codeENCODE then .ok (.encode q.header q.seq q.fill q.data q.len)
  else if q.code = 0#3 then .error .noOperation
  else .error .unassigned

/-- An encoded instruction: the bytes of one unit, or one request. -/
inductive Encoded where
  | wire (bytes : List Byte)
  | command (q : Command)
deriving DecidableEq, Repr

/-- Decoding, total: a wire unit with nothing after it, or a request. -/
def decode (e : Encoded) : Except Reject Instr :=
  match e with
  | .wire bytes =>
    match decodeWire bytes with
    | .ok (i, []) => .ok i
    | .ok (_, _ :: _) => .error .trailingBytes
    | .error r => .error r
  | .command q => decodeCommand q

/-! ### Encoding -/

/-- The bytes of a frame in wire order (R90). -/
def frameBytes (header seq nseq : Byte) (payload : List Byte) (crcHi crcLo : Byte) : List Byte :=
  header :: seq :: nseq :: (payload ++ [crcHi, crcLo])

/-- The words of an instruction (R90, R92, R103). -/
def encode (i : Instr) : Encoded :=
  match i with
  | .soh seq nseq payload hi lo => .wire (frameBytes symSOH seq nseq payload hi lo)
  | .stx seq nseq payload hi lo => .wire (frameBytes symSTX seq nseq payload hi lo)
  | .eot => .wire [symEOT]
  | .ack => .wire [symACK]
  | .nak => .wire [symNAK]
  | .can => .wire [symCAN]
  | .c => .wire [symC]
  | .init st at' ct u rs ts =>
    .command { code := codeINIT, sessionTimeout := st, ackTimeout := at', charTimeout := ct, use1k := u,
               rxbufSize := rs, txbufSize := ts }
  | .rxStep => .command { code := codeRXSTEP }
  | .sendFile name size file => .command { code := codeSENDFILE, filename := name, filesize := size, file := file }
  | .crc16 seed data len => .command { code := codeCRC16, seed := seed, data := data, len := len }
  | .validate buf len exp => .command { code := codeVALIDATE, data := buf, len := len, expectedSeq := exp }
  | .encode header seq fill payload len =>
    .command { code := codeENCODE, header := header, seq := seq, fill := fill, data := payload, len := len }

/-- The bytes of a wire symbol's unit; none for a host operation. -/
def wireBytes (i : Instr) : List Byte :=
  match encode i with
  | .wire bytes => bytes
  | .command _ => []

/-! ### Words numbered as spec/opcode_table.json numbers them -/

/-- The first `n` bytes of a word whose bit 0 is the least significant bit of the first byte. -/
def bytesOfWord : Nat → Nat → List Byte
  | 0, _ => []
  | n + 1, w => BitVec.ofNat 8 w :: bytesOfWord n (w / 256)

/-- The encoded form of the instruction whose bits are `w`: a row of 8 bits or more is a wire symbol, its missing bytes
zero (1029 is the longest unit, R95); a row given fewer bits is a command code with every operand line at zero (R103). -/
def encodedOfTableWord (nbits w : Nat) : Encoded :=
  if nbits < 8 then .command { code := BitVec.ofNat 3 (w % 2 ^ nbits) }
  else .wire (bytesOfWord 1029 (w % 2 ^ nbits))

/-- The instruction this decoder reads from a word of the opcode table. -/
def decodeTableWord (nbits w : Nat) : Option Instr :=
  match encodedOfTableWord nbits w with
  | .wire bytes =>
    match decodeWire bytes with
    | .ok (i, _) => some i
    | .error _ => none
  | .command q =>
    match decodeCommand q with
    | .ok i => some i
    | .error _ => none

end Sys2Proof
end

