-- ==== Sys2Proof/Machine/State.lean ====
section
/-! DEFINITION. The state of the block: every register, buffer and queue the spec names (10_state.md), the inputs of a
step as scripts, and the record of port transactions. -/

namespace Sys2Proof.Machine

/-- `RX_STATE` (10_state.md R27). Code 7 is never written and not represented (U6). -/
inductive RxState where
  | idle | recvHeader | recvData | recvEotConfirm | recvFinish | recvErr | recvTerm
deriving DecidableEq, Repr

/-- `ASM_STATE` (R28). -/
inductive AsmState where
  | awaitingSync | awaitingBody
deriving DecidableEq, Repr

/-- `TX_PHASE` (R36). Codes 9 to 15 are never written and not represented (U6). -/
inductive TxPhase where
  | txIdle | waitC1 | header | waitC2 | data | eotA | eotB | waitC3 | closing
deriving DecidableEq, Repr

/-- The causes of an Invalid verdict (60_exceptions.md R271). -/
inductive Cause where
  | empty | sync | length | complement | sequence | crc
deriving DecidableEq, Repr

/-- The result of VALIDATE (41_codec.md R140). -/
inductive Verdict where
  | control (b : Byte)
  | valid
  | invalid (cause : Cause)
deriving DecidableEq, Repr

/-- The status of an RX_STEP: 0, 1, -1 (R31, 42_receiver.md R173). -/
inductive RxStatus where
  | noEvent | success | failure
deriving DecidableEq, Repr

/-- What stands on the host's result port (R103): nothing, or the result of the operation that completed last. -/
inductive Result where
  | none
  | status (r : RxStatus)
  | send (ok : Bool)
  | crc (v : Half)
  | verdict (v : Verdict)
deriving DecidableEq, Repr

/-- One port transaction with its answer (00_scope.md R12, 10_state.md R40 to R49). -/
inductive PortCall where
  | put (b : Byte)
  | get (timeout : Word) (answer : Option Byte)
  | recv (max : Nat) (answer : List Byte)
  | clearIn
  | flush
  | tick (answer : Word)
  | delayMs (n : Nat)
  | onHeader (name : List Byte) (size : Nat) (accept : Bool)
  | onPacket (data : List Byte) (len : Nat) (accept : Bool)
  | onFinish (reason : Reason)
deriving DecidableEq, Repr

/-- The configuration registers (R32). -/
structure Cfg where
  sessionTimeout : Word
  ackTimeout : Word
  charTimeout : Word
  use1k : Bool
  rxbufSize : Half
  txbufSize : Half
deriving DecidableEq, Repr

/-- The receiver's registers (R22 to R30), and `now`, the Tick() value of the RX_STEP in progress (R180; log 21). -/
structure Rx where
  state : RxState
  asm : AsmState
  seq : Byte
  pktSize : BitVec 11
  retry : BitVec 8
  last : Word
  fill : BitVec 11
  need : BitVec 11
  active : Bool
  reason : Reason
  now : Word
deriving DecidableEq, Repr

/-- The sender's registers (R36); `waiting` says that the run is inside WaitByte's loop (log 23); `name`, `size` and `file`
are the operands of the run in progress (R35, R37). -/
structure Tx where
  phase : TxPhase
  seq : Byte
  off : Word
  attempt : BitVec 8
  t0 : Word
  waiting : Bool
  name : List Byte
  size : Nat
  file : List Byte
deriving DecidableEq, Repr

/-- The environment as the block meets it: the two link queues and the tick counter (R38), the requests of the host, the
scripts of answers, the counter of free answers, and the record of transactions (logs 2, 3, 4). -/
structure Env where
  linkIn : List Byte
  linkOut : List Byte
  tick : Word
  requests : List Command
  arrivals : List (List Byte)
  advances : List (BitVec 31)
  grants : List Nat
  answers : List Bool
  draws : Nat
  trace : List PortCall
deriving DecidableEq, Repr

/-- A byte space as the list of its non-zero bytes, by rising offset; an unlisted offset reads 0x00 (log 7). -/
abbrev Memory := List Host.Cell

/-- The canonical form of a byte space: offsets strictly rising, no zero byte listed. -/
abbrev Memory.wf (m : Memory) : Prop :=
  m.Pairwise (fun x y => x.1 < y.1) ∧ ∀ c ∈ m, c.2 ≠ 0#8

/-- The state of the block. -/
structure State where
  /-- The parameters of R8 (log 10). -/
  par : Params
  cfg : Cfg
  /-- An INIT has completed since hardware reset (R312; log 22). -/
  inited : Bool
  rx : Rx
  tx : Tx
  /-- `CRC_ACC` (R21). -/
  crcAcc : Half
  /-- `RXBUF` (R33, R65). -/
  rxbuf : Memory
  /-- `TXBUF` (R34, R67). -/
  txbuf : Memory
  env : Env
  result : Result
deriving DecidableEq, Repr

/-- Why the machine stops with a fault. The spec says no rule produces such an access (20_memory.md R66) and Safety.lean's
invariant rules each out; all are safe (the model stops where the spec gives no behaviour; log 18). -/
inductive Fault where
  /-- Raised by the assembler (and by the load of a whole unit): a write beyond CFG_RXBUF_SIZE. Safe. -/
  | rxbufRange
  /-- Raised by the sender's header build: a write beyond CFG_TXBUF_SIZE. Safe. -/
  | txbufRange
  /-- Raised by the sender's data phase: a read beyond FILE. Safe. -/
  | fileRange
deriving DecidableEq, Repr

/-- Why a request is given no meaning: the refusals of 60_exceptions.md R285 (R13: not performed, no state changes, no port
touched). All but the first are the spec's own and safe. -/
inductive Refusal where
  /-- Raised by `exec` for an instruction without a meaning; no arm does so now. Safe. -/
  | notModelled (mnemonic : String)
  /-- Raised by RX_STEP and SEND_FILE before the first INIT (R312). Safe. -/
  | notInitialised
  /-- Raised by INIT with an operand outside its legal range (R313). Safe. -/
  | badConfiguration
  /-- Raised by any host operation while a SEND_FILE run is in progress (R320, R285). Safe. -/
  | busy
  /-- Raised by SEND_FILE when RX_STATE is not Idle (R320). Safe. -/
  | notIdle
  /-- Raised by SEND_FILE when its operands are not Admissible (43_sender.md R237). Safe. -/
  | inadmissible
  /-- Raised by ENCODE outside its domain (41_codec.md R152). Safe. -/
  | encodeDomain
  /-- Raised by the fetch of command code 111 (R103). Safe. -/
  | unassignedCommand
deriving DecidableEq, Repr

/-- What one operation answers. -/
abbrev Out := Host.Outcome State Fault Refusal

/-- The environment at hardware reset: nothing pending, nothing asked, every answer still free (logs 2, 11). -/
def Env.reset : Env where
  linkIn := []
  linkOut := []
  tick := Config.tickAtReset
  requests := []
  arrivals := []
  advances := []
  grants := []
  answers := []
  draws := 0
  trace := []

/-- The machine right after hardware reset (10_state.md R50, 70_reset_and_hazards.md R310). Where R50 says "unspecified" the
value is the model's (logs 5, 6, 7). -/
def State.reset : State where
  par := Params.default
  cfg := { sessionTimeout := 0#32, ackTimeout := 0#32, charTimeout := 0#32, use1k := false,
           rxbufSize := 0#16, txbufSize := 0#16 }
  inited := false
  rx := { state := .idle, asm := .awaitingSync, seq := 0#8, pktSize := 0#11, retry := 0#8, last := 0#32,
          fill := 0#11, need := 0#11, active := false, reason := .success, now := 0#32 }
  tx := { phase := .txIdle, seq := 0#8, off := 0#32, attempt := 0#8, t0 := 0#32, waiting := false,
          name := [], size := 0, file := [] }
  crcAcc := 0#16
  rxbuf := []
  txbuf := []
  env := Env.reset
  result := .none

end Sys2Proof.Machine
end

