-- ==== Sys2Proof/Machine/Flags.lean ====
section
/-! DEFINITION. The one flag, the numeric codes of the state registers and results, and the time test. -/

namespace Sys2Proof.Machine

/-- `ACTIVE <- v` (10_state.md R29). The block has no other flag and no condition code. -/
def State.setActive (s : State) (v : Bool) : State := { s with rx := { s.rx with active := v } }

/-- The code of `RX_STATE` (R27, D5). -/
def rxStateCode : RxState → BitVec 3
  | .idle => 0#3
  | .recvHeader => 1#3
  | .recvData => 2#3
  | .recvEotConfirm => 3#3
  | .recvFinish => 4#3
  | .recvErr => 5#3
  | .recvTerm => 6#3

/-- The code of `ASM_STATE` (R28, D5). -/
def asmStateCode : AsmState → BitVec 1
  | .awaitingSync => 0#1
  | .awaitingBody => 1#1

/-- The code of `TX_PHASE` (R36, D5). -/
def txPhaseCode : TxPhase → BitVec 4
  | .txIdle => 0#4
  | .waitC1 => 1#4
  | .header => 2#4
  | .waitC2 => 3#4
  | .data => 4#4
  | .eotA => 5#4
  | .eotB => 6#4
  | .waitC3 => 7#4
  | .closing => 8#4

/-- The code of `REASON` (R30, D6). -/
def reasonCode : Reason → BitVec 3
  | .success => 0#3
  | .timeout => 1#3
  | .remoteTermination => 2#3
  | .headerReceiveError => 3#3
  | .headerParseError => 4#3
  | .packetProcessingError => 5#3
  | .endSequenceReceiveError => 6#3

/-- The status of an RX_STEP on the 2-bit result port, two's complement (R31, D3). -/
def statusCode : RxStatus → BitVec 2
  | .noEvent => 0b00#2
  | .success => 0b01#2
  | .failure => 0b11#2

/-- The result of SEND_FILE on its 1-bit port: ok 1, fail 0 (R31, D3). -/
def sendCode (ok : Bool) : BitVec 1 := if ok then 1#1 else 0#1

/-- The states that read the link (42_receiver.md R170, R174). -/
def RxState.receiving : RxState → Bool
  | .recvHeader => true
  | .recvData => true
  | .recvEotConfirm => true
  | .recvFinish => true
  | .idle => false
  | .recvErr => false
  | .recvTerm => false

/-- `(now - since) mod 2^32 >= timeout`, unsigned (R181, 43_sender.md R232, D8). -/
def elapsed (now since timeout : Word) : Bool := decide (timeout.toNat ≤ (now - since).toNat)

/-- `Expired(now)` (R181). -/
def State.expired (s : State) : Bool := elapsed s.rx.now s.rx.last s.cfg.sessionTimeout

end Sys2Proof.Machine
end

