-- ==== Sys2Proof/Machine/Ops.lean ====
section
/-! DEFINITION. The named operations over buffers, ports and registers; the terminal path (the block's form of taking an
exception, 60_exceptions.md R280, R281) once for all rules. -/

namespace Sys2Proof.Machine

/-! ### Constants (00_scope.md R8) -/

/-- `RX_RETRY_LIMIT`. -/
def rxRetryLimit : Nat := 3
/-- `CAN_BURST`. -/
def canBurst : Nat := 5
/-- `FILL_HEADER`, also of the closing packet. -/
def fillHeader : Byte := 0x00#8
/-- `FILL_DATA`. -/
def fillData : Byte := 0x1A#8
/-- The part of RXBUF the rules use: offsets 0 to 1028 (10_state.md R33). -/
def rxbufUsed : Nat := 1029

/-! ### Byte spaces (R11, 20_memory.md R69) -/

/-- `MemRead` of one byte. -/
def Memory.read : Memory → Nat → Byte
  | [], _ => 0#8
  | (k, b) :: t, a => if k = a then b else Memory.read t a

/-- `MemRead(space, a, n)`: `n` bytes, lowest offset first. -/
def Memory.readRun (m : Memory) (a : Nat) : Nat → List Byte
  | 0 => []
  | n + 1 => Memory.read m a :: Memory.readRun m (a + 1) n

/-- The cells of a run of bytes from offset `a`, zero bytes left out. -/
def cellsOf (a : Nat) : List Byte → Memory
  | [] => []
  | b :: t => if b = 0#8 then cellsOf (a + 1) t else (a, b) :: cellsOf (a + 1) t

/-- `MemWrite(space, a, n, bs)`: keeps the canonical form. -/
def Memory.write (m : Memory) (a : Nat) (bs : List Byte) : Memory :=
  m.filter (fun c => decide (c.1 < a)) ++ cellsOf a bs ++ m.filter (fun c => decide (a + bs.length ≤ c.1))

/-- Offsets 0 to `n - 1` set to 0x00. -/
def Memory.zeroBelow (m : Memory) (n : Nat) : Memory := m.filter (fun c => decide (n ≤ c.1))

/-- A write to RXBUF; an offset at or beyond CFG_RXBUF_SIZE does not exist (R60, R66). -/
def State.writeRxbuf (s : State) (a : Nat) (bs : List Byte) : Except Fault State :=
  if a + bs.length ≤ s.cfg.rxbufSize.toNat then .ok { s with rxbuf := s.rxbuf.write a bs }
  else .error .rxbufRange

/-! ### Ports (10_state.md R40 to R49) -/

/-- Appends one transaction to the record (R14). -/
def Env.record (e : Env) (p : PortCall) : Env := { e with trace := e.trace ++ [p] }

/-- `LinkPut(b)` (R40). -/
def Env.put (e : Env) (b : Byte) : Env :=
  { e with linkOut := e.linkOut ++ [b], trace := e.trace ++ [.put b] }

/-- `LinkPut` of each byte in order. -/
def Env.puts (e : Env) (bs : List Byte) : Env :=
  { e with linkOut := e.linkOut ++ bs, trace := e.trace ++ bs.map .put }

/-- `LinkFlush()` (R44). -/
def Env.flush (e : Env) : Env := { e with linkOut := [], trace := e.trace ++ [.flush] }

/-- What the peer has sent since the last transaction on the link's input enters the pending input (R38, U11; log 12). -/
def Env.arrive (e : Env) : Env :=
  match e.arrivals with
  | bs :: rest => { e with linkIn := e.linkIn ++ bs, arrivals := rest }
  | [] => { e with linkIn := e.linkIn ++ Config.freeArrival e.draws, draws := e.draws + 1 }

/-- `LinkClearIn()` (R43, R73). -/
def Env.clearIn (e : Env) : Env := { e.arrive with linkIn := [], trace := e.trace ++ [.clearIn] }

/-- `LinkGet(t)`: the head of the pending input, or EOF (R41). -/
def Env.get (e : Env) (t : Word) : Option Byte × Env :=
  match e.arrive.linkIn with
  | [] => (none, { e.arrive with trace := e.trace ++ [.get t none] })
  | b :: rest => (some b, { e.arrive with linkIn := rest, trace := e.trace ++ [.get t (some b)] })

/-- How many bytes the link hands over at most in this `LinkRecv` (U8; log 12). -/
def Env.grant (e : Env) : Nat × Env :=
  match e.grants with
  | g :: rest => (g, { e with grants := rest })
  | [] => (Config.freeGrant e.draws, { e with draws := e.draws + 1 })

/-- `LinkRecv(max)`: a prefix of the pending input of at most `max` bytes (R42, U8). -/
def Env.recv (e : Env) (max : Nat) : List Byte × Env :=
  let n := min e.arrive.grant.1 max
  let bs := e.arrive.linkIn.take n
  (bs, { e.arrive.grant.2 with linkIn := e.arrive.linkIn.drop n, trace := e.trace ++ [.recv max bs] })

/-- How far the tick counter has moved since the last `Tick()`: below 2^31 (R45). -/
def Env.advance (e : Env) : BitVec 31 × Env :=
  match e.advances with
  | d :: rest => (d, { e with advances := rest })
  | [] => (Config.freeAdvance e.draws, { e with draws := e.draws + 1 })

/-- `Tick()` (R45). -/
def Env.readTick (e : Env) : Word × Env :=
  let now := e.tick + e.advance.1.setWidth 32
  (now, { e.advance.2 with tick := now, trace := e.trace ++ [.tick now] })

/-- `DelayMs(n)` (R46): no rule invokes it (D22). -/
def Env.delayMs (e : Env) (n : Nat) : Env := e.record (.delayMs n)

/-- The consumer's next answer (R47, R48, U10). -/
def Env.answer (e : Env) : Bool × Env :=
  match e.answers with
  | a :: rest => (a, { e with answers := rest })
  | [] => (Config.freeAnswer e.draws, { e with draws := e.draws + 1 })

/-- `OnHeader(name, size)` (R47). -/
def Env.onHeader (e : Env) (name : List Byte) (size : Nat) : Bool × Env :=
  (e.answer.1, e.answer.2.record (.onHeader name size e.answer.1))

/-- `OnPacket(data, len)` (R48). -/
def Env.onPacket (e : Env) (data : List Byte) (len : Nat) : Bool × Env :=
  (e.answer.1, e.answer.2.record (.onPacket data len e.answer.1))

/-- `OnFinish(reason)` (R49). -/
def Env.onFinish (e : Env) (r : Reason) : Env := e.record (.onFinish r)

/-- `LinkPut` in the session. -/
def State.put (s : State) (b : Byte) : State := { s with env := s.env.put b }

/-- `LinkPut` of each byte in the session. -/
def State.puts (s : State) (bs : List Byte) : State := { s with env := s.env.puts bs }

/-! ### Register operations of the receiver -/

/-- `AsmReset()` (20_memory.md R78, 42_receiver.md R179). -/
def State.asmReset (s : State) : State :=
  { s with
    rx := { s.rx with asm := .awaitingSync, fill := 0#11, need := 0#11, pktSize := 0#11 }
    rxbuf := s.rxbuf.zeroBelow rxbufUsed }

/-- `Progress(now)` (R184). -/
def State.progress (s : State) : State := { s with rx := { s.rx with retry := 0#8, last := s.rx.now } }

/-- `SEQ <- v`. -/
def State.setSeq (s : State) (v : Byte) : State := { s with rx := { s.rx with seq := v } }

/-- `RX_STATE <- v`. -/
def State.goto (s : State) (v : RxState) : State := { s with rx := { s.rx with state := v } }

/-- The RX_STEP ends with a status (R173). -/
def State.finish (s : State) (r : RxStatus) : Out := .next { s with result := .status r }

/-! ### The terminal path (60_exceptions.md section 4): entry and return -/

/-- `Terminal(reason, via)`, the detection half: the reason is saved, RX_STATE goes to RecvErr or RecvTerm (R280). -/
def State.terminal (s : State) (reason : Reason) (via : RxState) : State :=
  { s with rx := { s.rx with reason := reason, state := via } }

/-- Terminal for a cause judged in this poll: the assembler is reset and the step returns 0 (R189, R191, R195, R197, R206). -/
def State.terminalStep (s : State) (reason : Reason) (via : RxState) : Out :=
  ((s.terminal reason via).asmReset).finish .noEvent

/-- `TerminalAction()`, the delivery half and the return to Idle: five CAN, OnFinish(REASON), ACTIVE cleared (R281, R282). -/
def State.terminalAction (s : State) : Out :=
  let s := s.puts (List.replicate canBurst symCAN)
  let s := { s with env := s.env.onFinish s.rx.reason }
  (((s.setActive false).asmReset).goto .idle).finish .failure

/-- `NakRetry(rsn, now)`: the receiver's one recovery action (42_receiver.md R183). -/
def State.nakRetry (s : State) (rsn : Reason) : State :=
  let s := (s.put symNAK).asmReset
  let s := { s with rx := { s.rx with retry := s.rx.retry + 1#8, last := s.rx.now } }
  if rxRetryLimit ≤ s.rx.retry.toNat then s.terminal rsn .recvErr else s

end Sys2Proof.Machine
end

