-- ==== Sys2Proof/Machine/Crc.lean ====
section
/-! DEFINITION. The CRC16 engine (40_crc16.md). -/

namespace Sys2Proof.Machine

/-- `CRC_POLY` (R8). -/
def crcPoly : Half := 0x1021#16

/-- One of the eight rounds of R131: the top bit is tested before the shift. -/
def crcRound (a : Half) : Half := if a.msb then (a <<< 1) ^^^ crcPoly else a <<< 1

/-- `CrcByte(acc, b)` (R131). -/
def crcByte (acc : Half) (b : Byte) : Half :=
  crcRound (crcRound (crcRound (crcRound (crcRound (crcRound (crcRound (crcRound
    (acc ^^^ (b.setWidth 16 <<< 8)))))))))

/-- `CRC16(seed, data, |data|)` (R130): a left fold of CrcByte, data[0] first. -/
def crc16 : Half → List Byte → Half
  | acc, [] => acc
  | acc, b :: t => crc16 (crcByte acc b) t

/-- The high byte, first on the wire (20_memory.md R61). -/
def crcHigh (v : Half) : Byte := v.extractLsb' 8 8

/-- The low byte, second on the wire. -/
def crcLow (v : Half) : Byte := v.extractLsb' 0 8

/-- `{hi, lo}` = `hi * 256 + lo` (00_scope.md R9, 30_encoding.md R96). -/
def crcOfBytes (hi lo : Byte) : Half := hi ++ lo

end Sys2Proof.Machine
end

