-- ==== Sys2Proof/Machine/Operands.lean ====
section
/-! DEFINITION. Operand forms: the ranges the spec tests, the header payload's text, the padded payload, the data packet's
slice of FILE. -/

namespace Sys2Proof.Machine

/-! ### INIT (10_state.md R32, 70_reset_and_hazards.md R313) -/

/-- A timeout's upper bound, 2^31 - 1. -/
def timeoutMax : Nat := 2147483647

/-- The legal column of R32 for the six operands of INIT. -/
def configLegal (sessionTimeout ackTimeout charTimeout : Word) (use1k : Nat) (rxbufSize txbufSize : Half) : Bool :=
  decide (1 ≤ sessionTimeout.toNat) && decide (sessionTimeout.toNat ≤ timeoutMax) &&
  decide (1 ≤ ackTimeout.toNat) && decide (ackTimeout.toNat ≤ timeoutMax) &&
  decide (charTimeout.toNat ≤ timeoutMax) && decide (use1k ≤ 1) &&
  decide (1029 ≤ rxbufSize.toNat) && decide (128 ≤ txbufSize.toNat)

/-! ### The byte operand of CRC16, VALIDATE and ENCODE (40_crc16.md R130, 41_codec.md R140, R149) -/

/-- The `n` operand bytes from offset `a` that the host did not give: free values (log 24). -/
def missingBytes (draw a : Nat) : Nat → List Byte
  | 0 => []
  | n + 1 => Config.freeOperandByte draw a :: missingBytes draw (a + 1) n

/-- The operand whose bytes 0 to `len - 1` an operation uses, from the bytes the host gave: DESIGN CHOICE (log 24), the spec says
nothing of a `len` beyond them, and each byte that is missing is a free value. -/
def State.operand (s : State) (data : List Byte) (len : Nat) : List Byte × State :=
  if len ≤ data.length then (data, s)
  else (data ++ missingBytes s.env.draws data.length (len - data.length),
    { s with env := { s.env with draws := s.env.draws + 1 } })

/-! ### Text of the header payload (41_codec.md sections 3 and 4) -/

/-- '0' .. '9' (00_scope.md R9). -/
def isDigit (b : Byte) : Bool := decide (0x30 ≤ b.toNat) && decide (b.toNat ≤ 0x39)

/-- The digits of `v` put before `acc`; `fuel` bounds their number. -/
def decimalAux : Nat → Nat → List Byte → List Byte
  | 0, _, acc => acc
  | fuel + 1, v, acc =>
    let acc' := BitVec.ofNat 8 (0x30 + v % 10) :: acc
    if v / 10 = 0 then acc' else decimalAux fuel (v / 10) acc'

/-- `decimal(v)`: the shortest digit string, most significant first (R160). -/
def decimal (v : Nat) : List Byte := decimalAux (v + 1) v []

/-- The bytes before the first 0x00, and those after it (R157). -/
def splitNul : List Byte → Option (List Byte × List Byte)
  | [] => none
  | b :: t =>
    if b = 0x00#8 then some ([], t)
    else match splitNul t with
      | some (name, rest) => some (b :: name, rest)
      | none => none

/-- The digit run of R157: the value and the number of digits, none when the value reaches `limit`. -/
def scanDigits (limit : Nat) : List Byte → Nat → Nat → Option (Nat × Nat)
  | [], v, k => some (v, k)
  | b :: t, v, k =>
    if isDigit b then
      let v' := v * 10 + (b.toNat - 0x30)
      if limit ≤ v' then none else scanDigits limit t v' (k + 1)
    else some (v, k)

/-- `ParseHeader(P, |P|)` (R156, R157); none is its `fail`. -/
def parseHeader (limit : Nat) (p : List Byte) : Option (List Byte × Nat) :=
  match splitNul p with
  | none => none
  | some (name, rest) =>
    match scanDigits limit rest 0 0 with
    | none => none
    | some (v, k) => if k = 0 then none else if v = 0 then none else some (name, v)

/-- What BuildHeader writes: name, NUL, decimal size (R159, 20_memory.md R67). -/
def headerText (name : List Byte) (size : Nat) : List Byte := name ++ 0x00#8 :: decimal size

/-! ### SEND_FILE (43_sender.md R237, R242) -/

/-- `Admissible(filename, filesize)` (R237 (a) to (d)). -/
def admissible (limit : Nat) (name : List Byte) (size : Nat) (file : List Byte) : Bool :=
  !name.contains 0x00#8 && decide (1 ≤ size) && decide (size < limit) &&
  decide (name.length + 1 + (decimal size).length ≤ 128) && decide (size ≤ file.length)

/-- The header byte and the number of file bytes of the next data packet, from the bytes that remain (R242). -/
def packetChoice (use1k : Bool) (rem : Nat) : Byte × Nat :=
  if use1k && decide (1024 ≤ rem) then (symSTX, 1024) else (symSOH, min rem 128)

/-! ### The padded payload (R150) -/

/-- The first `n` bytes of `payload`, filled up to `n` bytes with `fill`. -/
def padTo (n : Nat) (fill : Byte) (payload : List Byte) : List Byte :=
  payload.take n ++ List.replicate (n - payload.length) fill

end Sys2Proof.Machine
end

