-- ==== Sys2Proof/Machine/Codec.lean ====
section
/-! DEFINITION. The packet codec (41_codec.md) and the three leaf host operations CRC16, VALIDATE, ENCODE. -/

namespace Sys2Proof.Machine

/-- The control bytes of check 1 (R141). -/
def isControlByte (b : Byte) : Bool := b = symACK || b = symEOT || b = symNAK || b = symCAN

/-- VALIDATE: the verdict, and CRC_ACC after it, which only check 6 writes (R140 to R147). -/
def validate (buf : List Byte) (len : Nat) (expectedSeq : Byte) (acc : Half) : Verdict × Half :=
  let at' := fun i => buf.getD i 0#8
  if len = 0 then (.invalid .empty, acc)
  else if isControlByte (at' 0) then (.control (at' 0), acc)
  else match payloadSize (at' 0) with
    | none => (.invalid .sync, acc)
    | some n =>
      if len ≠ 3 + n + 2 then (.invalid .length, acc)
      else if at' 1 ^^^ at' 2 ≠ 0xFF#8 then (.invalid .complement, acc)
      else if at' 1 ≠ expectedSeq then (.invalid .sequence, acc)
      else
        let crc := crc16 0#16 ((buf.drop 3).take n)
        if crc ≠ crcOfBytes (at' (3 + n)) (at' (4 + n)) then (.invalid .crc, crc) else (.valid, crc)

/-- The CRC of a padded payload, seed 0 (40_crc16.md R133, R151). -/
def trailerCrc (n : Nat) (fill : Byte) (payload : List Byte) : Half := crc16 0#16 (padTo n fill payload)

/-- The `n + 5` bytes of a frame in the order ENCODE puts them (R149 to R151). -/
def encodedFrame (header seq fill : Byte) (n : Nat) (payload : List Byte) : List Byte :=
  frameBytes header seq (seq ^^^ 0xFF#8) (padTo n fill payload)
    (crcHigh (trailerCrc n fill payload)) (crcLow (trailerCrc n fill payload))

/-- ENCODE inside its domain: every byte through LinkPut, the CRC left in CRC_ACC (R149). -/
def State.emitFrame (s : State) (header seq fill : Byte) (n : Nat) (payload : List Byte) : State :=
  { s.puts (encodedFrame header seq fill n payload) with crcAcc := trailerCrc n fill payload }

/-- No other operation of the session is in progress (70_reset_and_hazards.md R320, 60_exceptions.md R285). -/
def State.free (s : State) (k : Out) : Out := if s.tx.phase = .txIdle then k else .refused .busy

/-- The meaning of CRC16 (40_crc16.md R130). -/
def execCrc16 (seed : Half) (data : List Byte) (len : Nat) (s : State) : Out :=
  let r := s.operand data len
  s.free (.next { r.2 with crcAcc := crc16 seed (r.1.take len), result := .crc (crc16 seed (r.1.take len)) })

/-- The meaning of VALIDATE, a verdict for every operand (R140, R147). -/
def execValidate (buf : List Byte) (len : Nat) (expectedSeq : Byte) (s : State) : Out :=
  let r := s.operand buf len
  let v := validate r.1 len expectedSeq s.crcAcc
  s.free (.next { r.2 with crcAcc := v.2, result := .verdict v.1 })

/-- The meaning of ENCODE (R149, R152, R153: no flush). -/
def execEncode (header seq fill : Byte) (payload : List Byte) (len : Nat) (s : State) : Out :=
  s.free (match payloadSize header with
    | none => .refused .encodeDomain
    | some n =>
      if len ≤ n then
        let r := s.operand payload len
        .next { r.2.emitFrame header seq fill n (r.1.take len) with result := .none }
      else .refused .encodeDomain)

end Sys2Proof.Machine
end

