-- ==== Sys2Proof/Machine/Session.lean ====
section
/-! DEFINITION. INIT (10_state.md R52, 70_reset_and_hazards.md R311, R313, R315). -/

namespace Sys2Proof.Machine

/-- The registers after an INIT with legal operands. Registers that R311 calls unspecified hold free values (log 8); RXBUF and
TXBUF, which R39 gives INIT no access to, are left alone (log 9). No port is touched (R52). -/
def State.initialise (s : State) (cfg : Cfg) : State :=
  { s with
    cfg := cfg
    inited := true
    rx := { state := .idle, asm := .awaitingSync, seq := 0#8, pktSize := 0#11, retry := 0#8,
            last := Config.freeLast s.env.draws, fill := 0#11, need := 0#11, active := false,
            reason := Config.freeReason s.env.draws, now := s.rx.now }
    tx := { s.tx with phase := .txIdle, waiting := false, seq := Config.freeTxSeq s.env.draws,
                      off := Config.freeTxOff s.env.draws, attempt := Config.freeTxAttempt s.env.draws,
                      t0 := Config.freeTxT0 s.env.draws }
    crcAcc := Config.freeCrcAcc s.env.draws
    env := { s.env with draws := s.env.draws + 1 }
    result := .none }

/-- The meaning of INIT, refused during another operation and with an operand outside its range (R313, R320). -/
def execInit (sessionTimeout ackTimeout charTimeout : Word) (use1k : Nat) (rxbufSize txbufSize : Half) (s : State) : Out :=
  s.free (if configLegal sessionTimeout ackTimeout charTimeout use1k rxbufSize txbufSize then
      .next (s.initialise { sessionTimeout := sessionTimeout, ackTimeout := ackTimeout, charTimeout := charTimeout,
                            use1k := decide (use1k = 1), rxbufSize := rxbufSize, txbufSize := txbufSize })
    else .refused .badConfiguration)

end Sys2Proof.Machine
end

