-- ==== Sys2Proof/Machine/Receiver.lean ====
section
/-! DEFINITION. The receiver: the byte assembler, the state actions, RX_STEP (42_receiver.md). -/

namespace Sys2Proof.Machine

/-! ### The byte assembler (section 2) -/

/-- A frame's sync byte opens the body (R176). -/
def State.openFrame (s : State) (n : Nat) : State :=
  { s with rx := { s.rx with pktSize := BitVec.ofNat 11 n, need := BitVec.ofNat 11 (3 + n + 2), asm := .awaitingBody } }

/-- `SyncAction()` (R176): true when a candidate is complete. -/
def State.syncAction (s : State) : Except Fault (Bool × State) :=
  let r := s.env.get s.cfg.charTimeout
  let s := { s with env := r.2 }
  match r.1 with
  | none => .ok (false, s)
  | some b =>
    match s.writeRxbuf 0 [b] with
    | .error f => .error f
    | .ok s =>
      let s := { s with rx := { s.rx with fill := 1#11 } }
      match payloadSize b with
      | some n => .ok (false, s.openFrame n)
      | none => .ok (true, s)

/-- `BodyAction()` (R177). -/
def State.bodyAction (s : State) : Except Fault (Bool × State) :=
  let r := s.env.recv (s.rx.need.toNat - s.rx.fill.toNat)
  let s := { s with env := r.2 }
  match s.writeRxbuf s.rx.fill.toNat r.1 with
  | .error f => .error f
  | .ok s =>
    let s := { s with rx := { s.rx with fill := s.rx.fill + BitVec.ofNat 11 r.1.length } }
    .ok (decide (s.rx.fill = s.rx.need), s)

/-- `Assemble()`: one assembler action per poll (R175). -/
def State.assemble (s : State) : Except Fault (Bool × State) :=
  match s.rx.asm with
  | .awaitingSync => s.syncAction
  | .awaitingBody => s.bodyAction

/-! ### State actions (sections 4 to 8) -/

/-- A framing error: NakRetry, status 0 (R183, R192, R198, R202, R208). -/
def State.framingError (s : State) (rsn : Reason) : Out := (s.nakRetry rsn).finish .noEvent

/-- `IdleAction(now)` (R186, row T1). -/
def State.idleAction (s : State) : Out :=
  let s := { s with env := s.env.clearIn.put symC }
  let s := ((s.setSeq 0#8).progress).asmReset
  (s.goto .recvHeader).finish .noEvent

/-- The payload of the frame in RXBUF, `RXBUF[3 .. 3+PKT_SIZE-1]`. -/
def State.payload (s : State) : List Byte := s.rxbuf.readRun 3 s.rx.pktSize.toNat

/-- RecvHeader, Valid (R189 to R191, rows T4 to T6). -/
def State.headerFrame (s : State) : Out :=
  match parseHeader s.par.filesizeLimit s.payload with
  | none => s.terminalStep .headerParseError .recvErr
  | some (name, size) =>
    let r := s.env.onHeader name size
    let s := { s with env := r.2 }
    if r.1 then
      let s := (s.put symACK).put symC
      let s := (((s.setSeq 1#8).setActive true).progress).goto .recvData
      s.asmReset.finish .noEvent
    else s.terminalStep .headerParseError .recvErr

/-- `HeaderAction(v, now)` (R187). -/
def State.headerAction (s : State) (v : Verdict) : Out :=
  match v with
  | .valid => s.headerFrame
  | .control _ => s.framingError s.par.rsnHdrExhaust
  | .invalid _ => s.framingError s.par.rsnHdrExhaust

/-- RecvData, Valid (R194, R195, rows T11, T12). -/
def State.dataFrame (s : State) : Out :=
  let r := s.env.onPacket s.payload s.rx.pktSize.toNat
  let s := { s with env := r.2 }
  if r.1 then
    let s := (s.setSeq (s.rx.seq + 1#8)).put symACK
    (s.progress).asmReset.finish .noEvent
  else s.terminalStep .packetProcessingError .recvErr

/-- `DataAction(v, now)` (R193, R196, R198). -/
def State.dataAction (s : State) (v : Verdict) : Out :=
  match v with
  | .valid => s.dataFrame
  | .control b =>
    if b = symEOT then (((s.put symNAK).progress).goto .recvEotConfirm).asmReset.finish .noEvent
    else s.framingError .timeout
  | .invalid _ => s.framingError .timeout

/-- `EotAction(v, now)` (R200, R202). -/
def State.eotAction (s : State) (v : Verdict) : Out :=
  match v with
  | .control b =>
    if b = symEOT then
      let s := (s.put symACK).put symC
      (((s.setSeq 0#8).progress).goto .recvFinish).asmReset.finish .noEvent
    else s.framingError s.par.rsnEndExhaust
  | .valid => s.framingError s.par.rsnEndExhaust
  | .invalid _ => s.framingError s.par.rsnEndExhaust

/-- RecvFinish, Valid: the closing test on payload byte 0 (R204 to R206, rows T23, T24). -/
def State.closingFrame (s : State) : Out :=
  if s.rxbuf.read 3 = 0x00#8 then
    let s := (s.put symACK).setActive false
    let s := { s with env := s.env.onFinish .success }
    ((s.goto .idle).asmReset).finish .success
  else s.terminalStep .remoteTermination .recvTerm

/-- `FinishAction(v, now)` (R203, R208). -/
def State.finishAction (s : State) (v : Verdict) : Out :=
  match v with
  | .valid => s.closingFrame
  | .control _ => s.framingError s.par.rsnEndExhaust
  | .invalid _ => s.framingError s.par.rsnEndExhaust

/-- The candidate in RXBUF is judged and acted on in the poll that completed it: CAN before every state rule, then the
state's action (R170, R178, R197, 60_exceptions.md R279). A state that reads no link judges nothing (R101). -/
def State.judge (s : State) : Out :=
  let r := validate (s.rxbuf.readRun 0 s.rx.fill.toNat) s.rx.fill.toNat s.rx.seq s.crcAcc
  let s := { s with crcAcc := r.2 }
  if r.1 = .control symCAN then s.terminalStep .remoteTermination .recvTerm
  else match s.rx.state with
    | .recvHeader => s.headerAction r.1
    | .recvData => s.dataAction r.1
    | .recvEotConfirm => s.eotAction r.1
    | .recvFinish => s.finishAction r.1
    | .idle => .next s
    | .recvErr => .next s
    | .recvTerm => .next s

/-! ### Deadline and the operation -/

/-- `DeadlineAction(now)` (R188, R199, R202, R208, rows T3, T10, T17, T22). -/
def State.deadlineAction (s : State) : Out :=
  match s.rx.state with
  | .recvHeader => (s.goto .idle).finish .noEvent
  | .recvData => s.framingError .timeout
  | .recvEotConfirm => s.framingError s.par.rsnEndExhaust
  | .recvFinish => s.framingError s.par.rsnEndExhaust
  | .idle => s.finish .noEvent
  | .recvErr => s.finish .noEvent
  | .recvTerm => s.finish .noEvent

/-- A poll of a receiving state: the assembler first, the deadline only when no candidate is complete (R185). -/
def State.poll (s : State) : Out :=
  match s.assemble with
  | .error f => .fault f
  | .ok (true, s) => s.judge
  | .ok (false, s) => if s.expired then s.deadlineAction else s.finish .noEvent

/-- The one `Tick()` of an RX_STEP (R180). -/
def State.latchTick (s : State) : State :=
  { s with env := s.env.readTick.2, rx := { s.rx with now := s.env.readTick.1 } }

/-- RX_STEP inside its domain (R170). -/
def State.rxStep (s : State) : Out :=
  match s.rx.state with
  | .idle => s.latchTick.idleAction
  | .recvErr => s.latchTick.terminalAction
  | .recvTerm => s.latchTick.terminalAction
  | .recvHeader => s.latchTick.poll
  | .recvData => s.latchTick.poll
  | .recvEotConfirm => s.latchTick.poll
  | .recvFinish => s.latchTick.poll

/-- The meaning of RX_STEP (R170), refused before INIT and during a send (R312, R320). -/
def execRxStep (s : State) : Out :=
  if s.inited then s.free s.rxStep else .refused .notInitialised

end Sys2Proof.Machine
end

