-- ==== Sys2Proof/Machine/Sender.lean ====
section
/-! DEFINITION. The sender (43_sender.md). A SEND_FILE run is taken in small steps, as R231 allows: `txBegin` is one
attempt's transmission up to the start of its wait, `txTimeTest` and `txByte` are what one turn of WaitByte's loop does. -/

namespace Sys2Proof.Machine

/-- The run ends: TX_PHASE returns to TxIdle, the other sender registers keep their values (R250). -/
def State.txEnd (s : State) (ok : Bool) : State :=
  { s with tx := { s.tx with phase := .txIdle, waiting := false }, result := .send ok }

/-- The next attempt of the step begins: in small steps, the wait is over (R233, R234, R246, R247). -/
def State.txRetry (s : State) : State := { s with tx := { s.tx with waiting := false } }

/-- A new step of the procedure: TX_PHASE written, no attempt made yet (R230, R36). -/
def State.txEnter (s : State) (p : TxPhase) : State :=
  { s with tx := { s.tx with phase := p, attempt := 0#8, waiting := false } }

/-! ### Waiting for a byte (section 2) -/

/-- The accept set of the phase's wait (R233, R234, R246, R247). -/
def txAccept : TxPhase → List Byte
  | .waitC1 => [symC]
  | .waitC2 => [symC]
  | .waitC3 => [symC]
  | .header => [symACK, symNAK]
  | .data => [symACK, symNAK]
  | .closing => [symACK, symNAK]
  | .eotA => [symNAK]
  | .eotB => [symACK, symNAK]
  | .txIdle => []

/-- The accepted byte that completes the phase; any other accepted byte repeats it. -/
def txGoal : TxPhase → Byte
  | .waitC1 => symC
  | .waitC2 => symC
  | .waitC3 => symC
  | .header => symACK
  | .data => symACK
  | .closing => symACK
  | .eotA => symNAK
  | .eotB => symACK
  | .txIdle => symC

/-- The time test that follows every LinkGet of a wait: TimedOut ends the attempt (R232). -/
def State.txTimeTest (s : State) : State :=
  let s' := { s with env := s.env.readTick.2 }
  if elapsed s.env.readTick.1 s.tx.t0 s.cfg.ackTimeout then s'.txRetry else s'

/-- `TX_T0 <- Tick()`: the wait begins (R232). -/
def State.txArm (s : State) : State :=
  { s with env := s.env.readTick.2, tx := { s.tx with t0 := s.env.readTick.1, waiting := true } }

/-! ### The steps (sections 3 and 4) -/

/-- The data packet at TX_OFF (R242). -/
def State.txPacket (s : State) : Byte × Nat := packetChoice s.cfg.use1k (s.tx.size - s.tx.off.toNat)

/-- The length of the header payload in TXBUF (41_codec.md R159). -/
def State.headerLen (s : State) : Nat := s.tx.name.length + 1 + (decimal s.tx.size).length

/-- One transmission of a frame, the flush after its CRC, the start of the wait (R234, R241). -/
def State.sendFramed (s : State) (header seq fill : Byte) (n : Nat) (payload : List Byte) : State :=
  let s := s.emitFrame header seq fill n payload
  { s with env := s.env.flush }.txArm

/-- The next attempt of the current step: its number is counted, its unit is sent, its wait begins; with the budget used up the
run fails (R233, R234, R246, R247, R250). Outside a run nothing happens. -/
def State.txBegin (s : State) : Out :=
  if s.tx.phase ≠ .txIdle && decide (s.par.txRetryLimit.toNat ≤ s.tx.attempt.toNat) then .next (s.txEnd false)
  else
    let s := { s with tx := { s.tx with attempt := s.tx.attempt + 1#8 } }
    match s.tx.phase with
    | .waitC1 => .next s.txArm
    | .waitC2 => .next s.txArm
    | .waitC3 => .next s.txArm
    | .header => .next (s.sendFramed symSOH 0#8 fillHeader 128 (s.txbuf.readRun 0 s.headerLen))
    | .data =>
      if s.tx.off.toNat + s.txPacket.2 ≤ s.tx.file.length then
        .next (s.sendFramed s.txPacket.1 s.tx.seq fillData ((payloadSize s.txPacket.1).getD 0)
          ((s.tx.file.drop s.tx.off.toNat).take s.txPacket.2))
      else .fault .fileRange
    | .eotA => .next (s.put symEOT).txArm
    | .eotB => .next (s.put symEOT).txArm
    | .closing => .next (s.sendFramed symSOH 0#8 fillHeader 128 [])
    | .txIdle => .next s

/-- The data phase goes on while TX_OFF < filesize, then EotA (R230, R243, R245). -/
def State.txNextData (s : State) : State :=
  if s.tx.off.toNat < s.tx.size then s.txEnter .data else s.txEnter .eotA

/-- `hlen <- BuildHeader(filename, filesize)`, and the Header step begins (R238, 41_codec.md R159). -/
def State.txBuildHeader (s : State) : Out :=
  if (headerText s.tx.name s.tx.size).length ≤ s.cfg.txbufSize.toNat then
    .next ({ s with txbuf := s.txbuf.write 0 (headerText s.tx.name s.tx.size) }.txEnter .header)
  else .fault .txbufRange

/-- The step in progress has succeeded: the next one of R230 begins, or the run ends with ok. -/
def State.txAdvance (s : State) : Out :=
  match s.tx.phase with
  | .waitC1 => s.txBuildHeader
  | .header => .next (s.txEnter .waitC2)
  | .waitC2 => .next { s with tx := { s.tx with seq := 1#8, off := 0#32 } }.txNextData
  | .data =>
    .next { s with tx := { s.tx with
      seq := s.tx.seq + 1#8
      off := s.tx.off + BitVec.ofNat 32 s.txPacket.2 } }.txNextData
  | .eotA => .next (s.txEnter .eotB)
  | .eotB => .next (s.txEnter .waitC3)
  | .waitC3 => .next (s.txEnter .closing)
  | .closing => .next (s.txEnd true)
  | .txIdle => .next s

/-- A byte that LinkGet has returned inside a wait: CAN first, then the accept set, else it is dropped and the time is tested
(R232, R251, 60_exceptions.md R279). -/
def State.txByte (s : State) (b : Byte) : Out :=
  if b = symCAN then .next (s.txEnd false)
  else if (txAccept s.tx.phase).contains b then
    if b = txGoal s.tx.phase then s.txAdvance else .next s.txRetry
  else .next s.txTimeTest

/-- The meaning of SEND_FILE: the run begins with the wait for the peer's 'C' (R230, R236), refused before INIT, during another
operation, outside RX_STATE = Idle, or with inadmissible operands (R312, R320, R237). -/
def execSendFile (filename : List Byte) (filesize : Nat) (file : List Byte) (s : State) : Out :=
  if s.inited then
    s.free (if s.rx.state = .idle then
      if admissible s.par.filesizeLimit filename filesize file then
        .next ({ s with tx := { s.tx with name := filename, size := filesize, file := file }, result := .none }.txEnter .waitC1)
      else .refused .inadmissible
    else .refused .notIdle)
  else .refused .notInitialised

end Sys2Proof.Machine
end

