-- ==== Sys2Proof/Machine/Wire.lean ====
section
/-! DEFINITION. The wire symbols as instructions: what the block does when it receives a unit (30_encoding.md R92, R101,
R102; log 14). -/

namespace Sys2Proof.Machine

/-- The assembler as it hands over a one-byte candidate (42_receiver.md R176). -/
def State.loadControl (s : State) (b : Byte) : Except Fault State :=
  match s.writeRxbuf 0 [b] with
  | .error f => .error f
  | .ok s => .ok { s with rx := { s.rx with fill := 1#11 } }

/-- The assembler as it hands over a complete frame with an `n`-byte payload (R176, R177). -/
def State.loadFrame (s : State) (n : Nat) (bytes : List Byte) : Except Fault State :=
  match s.writeRxbuf 0 bytes with
  | .error f => .error f
  | .ok s => .ok { s.openFrame n with rx := { (s.openFrame n).rx with fill := BitVec.ofNat 11 (3 + n + 2) } }

/-- A unit nobody reads stays in the pending input (R101, 20_memory.md R79). -/
def State.leavePending (s : State) (bytes : List Byte) : State :=
  { s with env := { s.env with linkIn := s.env.linkIn ++ bytes } }

/-- Reception of the unit `b :: rest`. A sender's wait has read its first byte, the others are next on the link (R102, log 15);
a receiving state has it complete in RXBUF and judges it (R178); elsewhere nothing is read. DESIGN CHOICE (log 14): a frame in
assembly is overwritten and dropped. A step never comes here then: RX_STEP takes the bytes as payload (60_exceptions.md R276). -/
def State.receive (s : State) (b : Byte) (rest : List Byte) (loaded : Except Fault State) : Out :=
  if s.tx.phase ≠ .txIdle then
    if s.tx.waiting then { s with env := { s.env with linkIn := rest ++ s.env.linkIn } }.txByte b
    else .next (s.leavePending (b :: rest))
  else if s.inited && s.rx.state.receiving then
    match loaded with
    | .ok s => s.judge
    | .error f => .fault f
  else .next (s.leavePending (b :: rest))

/-- The meaning of SOH: an F128 frame received (R142, R101). -/
def execSoh (seq nseq : Byte) (payload : List Byte) (crcHi crcLo : Byte) (s : State) : Out :=
  s.receive symSOH (seq :: nseq :: (payload ++ [crcHi, crcLo]))
    (s.loadFrame 128 (frameBytes symSOH seq nseq payload crcHi crcLo))

/-- The meaning of STX: an F1K frame received (R142, R101). -/
def execStx (seq nseq : Byte) (payload : List Byte) (crcHi crcLo : Byte) (s : State) : Out :=
  s.receive symSTX (seq :: nseq :: (payload ++ [crcHi, crcLo]))
    (s.loadFrame 1024 (frameBytes symSTX seq nseq payload crcHi crcLo))

/-- The meaning of EOT received (R196, R200, R101). -/
def execEot (s : State) : Out := s.receive symEOT [] (s.loadControl symEOT)

/-- The meaning of ACK received (R234, R247, R101). -/
def execAck (s : State) : Out := s.receive symACK [] (s.loadControl symACK)

/-- The meaning of NAK received (R234, R246, R247, R101). -/
def execNak (s : State) : Out := s.receive symNAK [] (s.loadControl symNAK)

/-- The meaning of CAN received (R197, R251). -/
def execCan (s : State) : Out := s.receive symCAN [] (s.loadControl symCAN)

/-- The meaning of 'C' received: what a sender waits for (R233); to a receiver a bad sync byte (R100). -/
def execC (s : State) : Out := s.receive symC [] (s.loadControl symC)

end Sys2Proof.Machine
end

