-- ==== Sys2Proof/Machine/Fetch.lean ====
section
/-! DEFINITION. Where the next instruction comes from. The block has no program counter (10_state.md R27): between operations it
takes the host's request (30_encoding.md R103); inside a sender's wait it takes the symbol at the head of the link (43_sender.md
R232). Units that reach a receiver are taken by RX_STEP's assembler. -/

namespace Sys2Proof.Machine

/-- What a step does: run an instruction from a state, or something that is no instruction. -/
inductive Fetched where
  | instr (i : Instr) (s : State)
  | done (o : Out)

/-- One turn of a sender's wait: LinkGet, then the symbol it returned, or the time test (R232). -/
def State.fetchWait (s : State) : Fetched :=
  let r := s.env.get s.cfg.charTimeout
  let s := { s with env := r.2 }
  match r.1 with
  | none => .done (.next s.txTimeTest)
  | some b =>
    match decodeWire [b] with
    | .ok (i, _) => .instr i s
    | .error _ => .done (s.txByte b)

/-- The host's next request (R103): none or code 000 asks for nothing, code 111 is refused. -/
def State.fetchRequest (s : State) : Fetched :=
  match s.env.requests with
  | [] => .done (.next s)
  | q :: rest =>
    let s := { s with env := { s.env with requests := rest } }
    match decodeCommand q with
    | .ok i => .instr i s
    | .error .noOperation => .done (.next s)
    | .error _ => .done (.refused .unassignedCommand)

/-- The next thing the block does. -/
def State.fetch (s : State) : Fetched :=
  if s.tx.phase = .txIdle then s.fetchRequest
  else if s.tx.waiting then s.fetchWait
  else .done s.txBegin

/-! ### Placing an instruction where the next step takes it (log 17) -/

/-- A session that an INIT has made: the registers as they are, or the smallest legal configuration (R313). -/
def State.withSession (s : State) : State :=
  if s.inited then s
  else { s with
    inited := true
    cfg := { sessionTimeout := 1#32, ackTimeout := 1#32, charTimeout := 0#32, use1k := false,
             rxbufSize := 1029#16, txbufSize := 128#16 } }

/-- The unit `b :: rest` is the next the receiver completes: a receiving state, RX_STEP requested, a frame's sync byte already
taken and its body ready on the link. -/
def State.placeForReceiver (s : State) (b : Byte) (rest : List Byte) : State :=
  let s := s.withSession
  let st := if s.rx.state.receiving then s.rx.state else .recvHeader
  let s := { s with tx := { s.tx with phase := .txIdle } }
  let s := { s with env := { s.env with requests := { code := codeRXSTEP } :: s.env.requests
                                        arrivals := [] :: s.env.arrivals } }
  match payloadSize b with
  | none =>
    { s with
      rx := { s.rx with state := st, asm := .awaitingSync, fill := 0#11, need := 0#11, pktSize := 0#11 }
      env := { s.env with linkIn := b :: s.env.linkIn } }
  | some n =>
    { s.openFrame n with
      rx := { (s.openFrame n).rx with state := st, fill := 1#11 }
      rxbuf := s.rxbuf.write 0 [b]
      env := { s.env with linkIn := rest.take (n + 4) ++ s.env.linkIn, grants := (n + 4) :: s.env.grants } }

/-- The symbol `b` is the next byte a sender's wait reads: 'C' in the first wait for 'C', ACK and NAK in the header packet's. -/
def State.placeForSender (s : State) (b : Byte) : State :=
  let s := s.withSession
  { s with
    rx := { s.rx with state := .idle }
    tx := { s.tx with phase := if b = symC then .waitC1 else .header, waiting := true }
    env := { s.env with linkIn := b :: s.env.linkIn, arrivals := [] :: s.env.arrivals } }

/-- An encoded instruction stored where the next step takes it: a request first in the host's queue; a wire unit by the
direction the opcode table gives it. -/
def State.place (s : State) (e : Encoded) : State :=
  match e with
  | .command q =>
    { s with tx := { s.tx with phase := .txIdle }, env := { s.env with requests := q :: s.env.requests } }
  | .wire [] => s
  | .wire (b :: rest) =>
    if b = symACK || b = symNAK || b = symC then s.placeForSender b else s.placeForReceiver b rest

end Sys2Proof.Machine
end

