-- ==== Sys2Proof/Machine/Dispatch.lean ====
section
/-! DEFINITION. One arm per constructor of Instr. -/

namespace Sys2Proof.Machine

def exec (i : Instr) (s : State) : Host.Outcome State Fault Refusal :=
  match i with
  | .soh seq nseq payload crcHi crcLo => Sys2Proof.Machine.execSoh seq nseq payload crcHi crcLo s
  | .stx seq nseq payload crcHi crcLo => Sys2Proof.Machine.execStx seq nseq payload crcHi crcLo s
  | .eot => Sys2Proof.Machine.execEot s
  | .ack => Sys2Proof.Machine.execAck s
  | .nak => Sys2Proof.Machine.execNak s
  | .can => Sys2Proof.Machine.execCan s
  | .c => Sys2Proof.Machine.execC s
  | .init st tk ct u rs ts => Sys2Proof.Machine.execInit st tk ct u rs ts s
  | .rxStep => Sys2Proof.Machine.execRxStep s
  | .sendFile filename filesize file => Sys2Proof.Machine.execSendFile filename filesize file s
  | .crc16 seed data len => Sys2Proof.Machine.execCrc16 seed data len s
  | .validate buf len expectedSeq => Sys2Proof.Machine.execValidate buf len expectedSeq s
  | .encode header seq fill payload len => Sys2Proof.Machine.execEncode header seq fill payload len s

end Sys2Proof.Machine
end

