-- ==== Sys2Proof/Machine/Step.lean ====
section
/-! DEFINITION. One step of the machine: fetch, then run. -/

namespace Sys2Proof.Machine

/-- A step runs the instruction that `fetch` found, or does what stands in its place (log 1). -/
def step (s : State) : Host.Outcome State Fault Refusal :=
  match s.fetch with
  | .instr i s' => exec i s'
  | .done o => o

/-- `s` with the instruction of the opcode table whose bits are `w` placed where the next step takes it (log 17). -/
def State.withFetchWord (s : State) (nbits w : Nat) : State := s.place (encodedOfTableWord nbits w)

end Sys2Proof.Machine
end

