-- ==== Sys2Proof/Safety.lean ====
section
/-! DEFINITION. The terms claims are made in: what a stretch of the record says, what an operation leaves alone, the invariant
that rules out every fault. -/

namespace Sys2Proof.Machine

/-! ### Reading the record of port transactions (00_scope.md R14) -/

/-- The bytes a stretch of the record puts on the link, in order. -/
def putsOf : List PortCall → List Byte
  | [] => []
  | .put b :: rest => b :: putsOf rest
  | _ :: rest => putsOf rest

/-- The reasons a stretch of the record hands to OnFinish, in order. -/
def finishesOf : List PortCall → List Reason
  | [] => []
  | .onFinish r :: rest => r :: finishesOf rest
  | _ :: rest => finishesOf rest

/-- A call of the consumer (R47 to R49). -/
def isCallback : PortCall → Bool
  | .onHeader _ _ _ => true
  | .onPacket _ _ _ => true
  | .onFinish _ => true
  | _ => false

/-- A read of the link's input (R41, R42). -/
def isLinkRead : PortCall → Bool
  | .get _ _ => true
  | .recv _ _ => true
  | _ => false

/-- A read of the tick source (R45). -/
def isTick : PortCall → Bool
  | .tick _ => true
  | _ => false

/-- A transaction the receiver is allowed (42_receiver.md R209): no flush, no delay, and of bytes only 'C', ACK, NAK, CAN. -/
def receiverMay : PortCall → Bool
  | .put b => b = 0x43#8 || b = 0x06#8 || b = 0x15#8 || b = 0x18#8
  | .flush => false
  | .delayMs _ => false
  | _ => true

/-- A transaction the sender is allowed (43_sender.md R252): LinkPut, LinkFlush, LinkGet, Tick. -/
def senderMay : PortCall → Bool
  | .put _ => true
  | .flush => true
  | .get _ _ => true
  | .tick _ => true
  | _ => false

/-- `t` follows `s` after exactly the transactions `calls`, none of them a flush. -/
def did (s t : State) (calls : List PortCall) : Prop :=
  t.env.trace = s.env.trace ++ calls ∧ t.env.linkOut = s.env.linkOut ++ putsOf calls

/-! ### What stays as it was -/

/-- Parameters, configuration and the sender's state (`CRC_ACC` and the environment apart). -/
def sameSetting (s t : State) : Prop :=
  t.par = s.par ∧ t.cfg = s.cfg ∧ t.inited = s.inited ∧ t.tx = s.tx ∧ t.txbuf = s.txbuf

/-- Every queue and script of the environment but the consumer's answers. -/
def sameLink (s t : State) : Prop :=
  t.env.linkIn = s.env.linkIn ∧ t.env.tick = s.env.tick ∧ t.env.requests = s.env.requests ∧
  t.env.arrivals = s.env.arrivals ∧ t.env.advances = s.env.advances ∧ t.env.grants = s.env.grants

/-- Every input of the environment. -/
def sameInputs (s t : State) : Prop :=
  sameLink s t ∧ t.env.answers = s.env.answers ∧ t.env.draws = s.env.draws

/-- The receiver's side and the parameters, configuration, RXBUF. -/
def sameReceiver (s t : State) : Prop :=
  t.par = s.par ∧ t.cfg = s.cfg ∧ t.inited = s.inited ∧ t.rx = s.rx ∧ t.rxbuf = s.rxbuf

/-- The receiver's registers after AsmReset (20_memory.md R78). -/
def Rx.cleared (r : Rx) : Rx :=
  { r with asm := .awaitingSync, fill := 0#11, need := 0#11, pktSize := 0#11 }

/-- RXBUF after AsmReset: offsets 0 to 1028 read 0x00, every other offset as before (R78). -/
def rxbufCleared (s t : State) : Prop :=
  ∀ a, t.rxbuf.read a = if a < 1029 then 0#8 else s.rxbuf.read a

/-- The receiver's registers after a NakRetry with reason `rsn` (42_receiver.md R183): the third event is terminal. -/
def Rx.afterNak (r : Rx) (rsn : Reason) : Rx :=
  if 3 ≤ (r.retry + 1#8).toNat then
    { r.cleared with retry := r.retry + 1#8, last := r.now, reason := rsn, state := .recvErr }
  else { r.cleared with retry := r.retry + 1#8, last := r.now }

/-- The reason NakRetry is given in each receiving state (R183, D13). -/
def nakReason (p : Params) : RxState → Reason
  | .recvHeader => p.rsnHdrExhaust
  | .recvEotConfirm => p.rsnEndExhaust
  | .recvFinish => p.rsnEndExhaust
  | _ => .timeout

/-! ### Situations -/

/-- The receiver is in `st` and an RX_STEP would be admitted (70_reset_and_hazards.md R312, R320). -/
def listens (s : State) (st : RxState) : Prop :=
  s.inited = true ∧ s.tx.phase = .txIdle ∧ s.rx.state = st

/-- A SEND_FILE run is inside WaitByte's loop of phase `p`. -/
def awaits (s : State) (p : TxPhase) : Prop :=
  s.tx.phase = p ∧ p ≠ .txIdle ∧ s.tx.waiting = true

/-- Nothing reads the link: outside a sender's wait and a receiving state (30_encoding.md R101). -/
def deaf (s : State) : Prop :=
  (s.tx.phase ≠ .txIdle ∧ s.tx.waiting = false) ∨
  (s.tx.phase = .txIdle ∧ (s.rx.state = .idle ∨ s.rx.state = .recvErr ∨ s.rx.state = .recvTerm))

/-- `i` is the frame with these fields (30_encoding.md R90, R91). -/
def isFrame (i : Instr) (seq nseq : Byte) (payload : List Byte) (crcHi crcLo : Byte) : Prop :=
  (i = .soh seq nseq payload crcHi crcLo ∧ payload.length = 128) ∨
  (i = .stx seq nseq payload crcHi crcLo ∧ payload.length = 1024)

/-- The frame's complement and CRC are right (41_codec.md R144, R146). -/
def intact (seq nseq : Byte) (payload : List Byte) (crcHi crcLo : Byte) : Prop :=
  seq ^^^ nseq = 0xFF#8 ∧ crcHi ++ crcLo = crc16 0#16 payload

/-! ### The invariant -/

/-- The assembler's registers agree with each other and with RXBUF's first byte (10_state.md R26, R28; 42_receiver.md R176,
R177). -/
def asmSound (s : State) : Prop :=
  (s.rx.asm = .awaitingSync ∧ s.rx.fill = 0#11 ∧ s.rx.need = 0#11 ∧ s.rx.pktSize = 0#11) ∨
  (s.rx.asm = .awaitingBody ∧ 1 ≤ s.rx.fill.toNat ∧ s.rx.fill.toNat < s.rx.need.toNat ∧
    ((s.rx.pktSize = 128#11 ∧ s.rx.need = 133#11 ∧ s.rxbuf.read 0 = 0x01#8) ∨
     (s.rx.pktSize = 1024#11 ∧ s.rx.need = 1029#11 ∧ s.rxbuf.read 0 = 0x02#8)))

/-- The legal configuration of R32. -/
def cfgSound (c : Cfg) : Prop :=
  configLegal c.sessionTimeout c.ackTimeout c.charTimeout (if c.use1k then 1 else 0) c.rxbufSize c.txbufSize = true

/-- A SEND_FILE run in progress: admissible operands, attempts within the budget, TX_OFF inside FILE, TXBUF holding the header
payload while it is being sent (43_sender.md R237, R243; 20_memory.md R67). -/
def runSound (s : State) : Prop :=
  s.inited = true ∧ s.rx.state = .idle ∧
  admissible s.par.filesizeLimit s.tx.name s.tx.size s.tx.file = true ∧
  s.tx.attempt.toNat ≤ s.par.txRetryLimit.toNat ∧
  (s.tx.waiting = true → 1 ≤ s.tx.attempt.toNat) ∧
  (s.tx.phase = .data → s.tx.off.toNat < s.tx.size) ∧
  (s.tx.phase = .header → s.txbuf.readRun 0 s.headerLen = headerText s.tx.name s.tx.size)

/-- What every reachable state has. Each clause is a rule of the spec about the block as a whole. -/
structure Sound (s : State) : Prop where
  /-- The parameters are in range (93_implementation_defined.md U13 to U16). -/
  par : s.par.legal
  /-- The buffers are canonical. -/
  rxbuf : s.rxbuf.wf
  txbuf : s.txbuf.wf
  /-- Only an initialised session leaves Idle (R312), and its configuration is legal (R313). -/
  cfg : s.inited = true → cfgSound s.cfg
  started : s.rx.state ≠ .idle → s.inited = true
  asm : asmSound s
  /-- RXBUF is zero beyond what the assembler has collected (R33, R65, R78). -/
  zeros : s.rx.state.receiving = true → ∀ a, s.rx.fill.toNat ≤ a → a < 1029 → s.rxbuf.read a = 0#8
  /-- RETRY stays within the budget, below it while receiving (R24, R15 (e)). -/
  retry : s.rx.retry.toNat ≤ 3
  budget : s.rx.state.receiving = true → s.rx.retry.toNat < 3
  /-- The header and the closing packet are expected with sequence 0 (R187, R203). -/
  seqZero : s.rx.state = .recvHeader ∨ s.rx.state = .recvFinish → s.rx.seq = 0#8
  /-- ACTIVE is set from the header's acceptance to the end of the session (R29). -/
  active : s.rx.state = .recvData ∨ s.rx.state = .recvEotConfirm ∨ s.rx.state = .recvFinish → s.rx.active = true
  inactive : s.rx.state = .idle ∨ s.rx.state = .recvHeader → s.rx.active = false
  /-- The pre-terminal states hold a failure reason; RecvTerm's is remote termination (R272, R280). -/
  reasonErr : s.rx.state = .recvErr → s.rx.reason ≠ .success
  reasonTerm : s.rx.state = .recvTerm → s.rx.reason = .remoteTermination
  /-- A session is used in one direction at a time (R320). -/
  run : s.tx.phase = .txIdle ∧ s.tx.waiting = false ∨ s.tx.phase ≠ .txIdle ∧ runSound s

end Sys2Proof.Machine
end

