-- ==== Sys2Proof/Certificates/Slice0/Obligations.lean ====
section
/-! DEFINITION. The statements for the provers. Each holds for every state, every script of the environment and every value of
the parameters, unless a hypothesis says otherwise. The scripts (log 2), the record `env.trace` (log 3), the small steps of a
SEND_FILE run (log 1) and the result port (log 25) are the model's own form for what the rules say of ports and operations. -/

open Sys2Proof Sys2Proof.Machine

/-! ### Encodings -/

/-- Every well-formed instruction is read back from its encoding, and a unit is read back from the head of any stream
(30_encoding.md R90, R92, R95, R103; the layout of the command port is log 16). -/
def Obligations.DecodeInvertsEncode : Prop :=
  ∀ i : Instr, i.wellFormed = true →
    decode (encode i) = .ok i ∧
    (i.isWire = true → ∀ rest, decodeWire (wireBytes i ++ rest) = .ok (i, rest))

/-- A decoded unit is exactly the bytes taken off the stream: no byte is dropped or invented, and the first byte alone gave its
length (R95). -/
def Obligations.EncodeInvertsDecode : Prop :=
  ∀ (bytes rest : List Byte) (i : Instr), decodeWire bytes = .ok (i, rest) →
    i.wellFormed = true ∧ i.isWire = true ∧ wireBytes i ++ rest = bytes ∧
    (wireBytes i).length =
      (if bytes.head? = some 0x01#8 then 133 else if bytes.head? = some 0x02#8 then 1029 else 1)

/-- Words written out from R90, R92 and R103. -/
def Obligations.WrittenWordsDecode : Prop :=
  decodeWire [0x04#8] = .ok (.eot, []) ∧ decodeWire [0x06#8, 0x43#8] = .ok (.ack, [0x43#8]) ∧
  decodeWire [0x15#8] = .ok (.nak, []) ∧ decodeWire [0x18#8] = .ok (.can, []) ∧
  decodeWire [0x43#8] = .ok (.c, []) ∧
  decodeWire ([0x01#8, 0x00#8, 0xFF#8] ++ List.replicate 128 0x00#8 ++ [0x00#8, 0x00#8, 0x04#8]) =
    .ok (.soh 0x00#8 0xFF#8 (List.replicate 128 0x00#8) 0x00#8 0x00#8, [0x04#8]) ∧
  decodeCommand { code := 0b010#3 } = .ok .rxStep

/-- Every first byte outside the six of VALIDATE's domain is Invalid(sync) to the deframer, 'C' included (R100, R142). -/
def Obligations.IllegalFirstByteIsBadSync : Prop :=
  ∀ (b exp : Byte) (rest : List Byte) (len : Nat) (acc : Half), 1 ≤ len →
    b ∉ [0x01#8, 0x02#8, 0x04#8, 0x06#8, 0x15#8, 0x18#8] →
    validate (b :: rest) len exp acc = (.invalid .sync, acc) ∧
    (b ≠ 0x43#8 → decodeWire (b :: rest) = .error .badSync)

/-! ### The step -/

/-- Between operations a step takes the host's next request and runs the operation it decodes to (R103); with no request, or
code 000, nothing but the request changes; code 111 is refused. The queue of requests and the operand lines are the model's
(logs 4, 16). -/
def Obligations.StepRunsRequestedOperation : Prop :=
  ∀ s : State, s.tx.phase = .txIdle →
    (∀ q rest i, s.env.requests = q :: rest → decodeCommand q = .ok i →
      step s = exec i { s with env := { s.env with requests := rest } }) ∧
    (s.env.requests = [] → step s = .next s) ∧
    (∀ q rest, s.env.requests = q :: rest → q.code = 0b000#3 →
      step s = .next { s with env := { s.env with requests := rest } }) ∧
    (∀ q rest, s.env.requests = q :: rest → q.code = 0b111#3 → step s = .refused .unassignedCommand)

/-- Inside a sender's wait a step makes one LinkGet: it runs the one-byte symbol that is returned, and on EOF, or on a byte that is
none of them (a lone SOH or STX too), it only tests the time: the wait ends exactly when CFG_ACK_TIMEOUT ticks have passed since
TX_T0 (43_sender.md R232, R102; that a turn of the wait is a step and the symbol an instruction is logs 1, 14). -/
def Obligations.StepRunsSymbolInWait : Prop :=
  ∀ s : State, s.tx.phase ≠ .txIdle → s.tx.waiting = true →
    let r := s.env.get s.cfg.charTimeout
    let tested := { s with
      env := r.2.readTick.2
      tx := { s.tx with
        waiting := decide (¬ s.cfg.ackTimeout.toNat ≤ (r.2.readTick.1 - s.tx.t0).toNat) } }
    (∀ b i, r.1 = some b → decodeWire [b] = .ok (i, []) → step s = exec i { s with env := r.2 }) ∧
    (r.1 = none → step s = .next tested) ∧
    (∀ b, r.1 = some b → b ∉ [0x04#8, 0x06#8, 0x15#8, 0x18#8, 0x43#8] → step s = .next tested)

/-- An RX_STEP whose poll completes a unit runs that unit: in a sound receiving state, if the assembler's action hands over a
candidate that decodes to `i`, the RX_STEP is exec of `i` at the state the assembler leaves (42_receiver.md R178). -/
def Obligations.RxStepRunsCompletedUnit : Prop :=
  ∀ (s u : State) (i : Instr) (rest : List Byte), Sound s → s.tx.phase = .txIdle → s.rx.state.receiving = true →
    s.latchTick.assemble = .ok (true, u) →
    decodeWire (u.rxbuf.readRun 0 u.rx.fill.toNat) = .ok (i, rest) →
    exec .rxStep s = exec i u

/-! ### CRC16 -/

/-- CRC16 runs for every seed, every byte sequence and every length and changes CRC_ACC and the result port only (40_crc16.md
R130, R134). With a length beyond the bytes given, which the spec does not consider, the missing bytes are free values (`more`)
and the count of free answers moves (the model's choice, log 24). -/
def Obligations.Crc16Completes : Prop :=
  ∀ (s : State) (seed : Half) (data : List Byte) (len : Nat), s.tx.phase = .txIdle →
    ∃ more draws, more.length = len - data.length ∧ (len ≤ data.length → draws = s.env.draws) ∧
      exec (.crc16 seed data len) s = .next { s with
        env := { s.env with draws := draws }
        crcAcc := ((data ++ more).take len).foldl crcByte seed
        result := .crc (((data ++ more).take len).foldl crcByte seed) }

/-- One round of R131 on natural numbers: the top bit of the 16, a shift that drops it, 0x1021. -/
def crcRoundNat (a : Nat) : Nat := if 32768 ≤ a then (2 * a % 65536) ^^^ 0x1021 else 2 * a

/-- CrcByte is eight rounds on the accumulator with the byte XORed into its high half (R131). -/
def Obligations.CrcByteIsEightRounds : Prop :=
  ∀ (acc : Half) (b : Byte),
    (crcByte acc b).toNat = crcRoundNat^[8] (acc.toNat ^^^ (256 * b.toNat))

/-- A running seed checksums non-contiguous spans (R132). -/
def Obligations.CrcChainsOverSpans : Prop :=
  ∀ (seed : Half) (a b : List Byte), crc16 (crc16 seed a) b = crc16 seed (a ++ b)

/-- Appending the CRC, high byte first, gives residue 0; with seed 0 the CRC of an XOR is the XOR of the CRCs (R135 (a), (b)). -/
def Obligations.CrcResidueAndLinearity : Prop :=
  (∀ data : List Byte,
    crc16 0#16 (data ++ [crcHigh (crc16 0#16 data), crcLow (crc16 0#16 data)]) = 0#16) ∧
  (∀ a b : List Byte, a.length = b.length →
    crc16 0#16 (List.zipWith (fun x y => x ^^^ y) a b) = crc16 0#16 a ^^^ crc16 0#16 b)

/-- Two payloads that differ in exactly one byte have different CRCs (R136). -/
def Obligations.CrcDetectsAnySingleByteChange : Prop :=
  ∀ (before after : List Byte) (x y : Byte), x ≠ y →
    crc16 0#16 (before ++ x :: after) ≠ crc16 0#16 (before ++ y :: after)

/-! ### The codec -/

/-- VALIDATE's verdict, by the first failing check in R271's order, for every buffer, expected sequence and length within the
buffer: the control byte (R141), the header byte (R142), the length (R143), the complement (R144), the sequence (R145), the CRC
(R146). That an empty candidate is Invalid(empty) is the spec's own decision (R147, 92_eei_decisions.md D23). -/
def Obligations.ValidateReportsFirstFailingCheck : Prop :=
  ∀ (buf : List Byte) (len : Nat) (exp : Byte) (acc : Half), len ≤ buf.length →
    let v := (validate buf len exp acc).1
    let b := fun i => buf.getD i 0#8
    let framed := fun n => 1 ≤ len ∧ ((b 0 = 0x01#8 ∧ n = 128) ∨ (b 0 = 0x02#8 ∧ n = 1024)) ∧ len = n + 5
    (v = .invalid .empty ↔ len = 0) ∧
    (∀ x, v = .control x ↔ 1 ≤ len ∧ b 0 = x ∧ x ∈ [0x06#8, 0x04#8, 0x15#8, 0x18#8]) ∧
    (v = .invalid .sync ↔ 1 ≤ len ∧ b 0 ∉ [0x06#8, 0x04#8, 0x15#8, 0x18#8, 0x01#8, 0x02#8]) ∧
    (v = .invalid .length ↔ 1 ≤ len ∧ ((b 0 = 0x01#8 ∧ len ≠ 133) ∨ (b 0 = 0x02#8 ∧ len ≠ 1029))) ∧
    (v = .invalid .complement ↔ ∃ n, framed n ∧ b 1 ^^^ b 2 ≠ 0xFF#8) ∧
    (v = .invalid .sequence ↔ ∃ n, framed n ∧ b 1 ^^^ b 2 = 0xFF#8 ∧ b 1 ≠ exp) ∧
    (v = .invalid .crc ↔ ∃ n, framed n ∧ b 1 ^^^ b 2 = 0xFF#8 ∧ b 1 = exp ∧
      crc16 0#16 ((buf.drop 3).take n) ≠ b (3 + n) ++ b (4 + n)) ∧
    (v = .valid ↔ ∃ n, framed n ∧ b 1 ^^^ b 2 = 0xFF#8 ∧ b 1 = exp ∧
      crc16 0#16 ((buf.drop 3).take n) = b (3 + n) ++ b (4 + n))

/-- VALIDATE as a host operation answers its verdict for every operand and changes CRC_ACC and the result port only. CRC_ACC
changes only when check 6 was made, and then holds the CRC of the payload region, seed 0: for Valid, the frame's last two bytes
(41_codec.md R140, R146, R147). With a length beyond the bytes given the missing bytes are free values (`more`) and the count of
free answers moves (the model's choice, log 24). -/
def Obligations.ValidateCompletes : Prop :=
  ∀ (s : State) (buf : List Byte) (len : Nat) (exp : Byte), s.tx.phase = .txIdle →
    ∃ more draws acc, more.length = len - buf.length ∧ (len ≤ buf.length → draws = s.env.draws) ∧
      let all := buf ++ more
      let v := (validate all len exp s.crcAcc).1
      exec (.validate buf len exp) s = .next { s with
        env := { s.env with draws := draws }, crcAcc := acc, result := .verdict v } ∧
      (v ≠ .valid → v ≠ .invalid .crc → acc = s.crcAcc) ∧
      (v = .valid ∨ v = .invalid .crc → acc = crc16 0#16 ((all.drop 3).take (len - 5))) ∧
      (v = .valid → acc = all.getD (len - 2) 0#8 ++ all.getD (len - 1) 0#8)

/-- The bytes of a frame as R149 puts them: header, seq, its complement, payload and fill, CRC of both, high byte first. -/
def wireFrame (header seq fill : Byte) (n : Nat) (payload : List Byte) : List Byte :=
  let body := payload ++ List.replicate (n - payload.length) fill
  [header, seq, ~~~seq] ++ body ++ [(crc16 0#16 body).extractLsb' 8 8, (crc16 0#16 body).extractLsb' 0 8]

/-- ENCODE inside its domain puts exactly the n + 5 bytes of the frame, touches no other port and no other state but CRC_ACC
(R149, R150, R151, R153). With a length beyond the bytes given the missing bytes are free values (`more`) and the count of free
answers moves (the model's choice, log 24). -/
def Obligations.EncodePutsTheFrame : Prop :=
  ∀ (s : State) (header seq fill : Byte) (payload : List Byte) (len n : Nat), s.tx.phase = .txIdle →
    ((header = 0x01#8 ∧ n = 128) ∨ (header = 0x02#8 ∧ n = 1024)) → len ≤ n →
    ∃ more draws, more.length = len - payload.length ∧ (len ≤ payload.length → draws = s.env.draws) ∧
      let sent := (payload ++ more).take len
      (wireFrame header seq fill n sent).length = n + 5 ∧
      exec (.encode header seq fill payload len) s = .next { s with
        env := { s.env with
          draws := draws
          linkOut := s.env.linkOut ++ wireFrame header seq fill n sent
          trace := s.env.trace ++ (wireFrame header seq fill n sent).map .put }
        crcAcc := crc16 0#16 (sent ++ List.replicate (n - len) fill)
        result := .none }

/-- Outside its domain ENCODE is refused (R152). -/
def Obligations.EncodeRefusedOutsideDomain : Prop :=
  ∀ (s : State) (header seq fill : Byte) (payload : List Byte) (len : Nat), s.tx.phase = .txIdle →
    ((header ≠ 0x01#8 ∧ header ≠ 0x02#8) ∨ (header = 0x01#8 ∧ 128 < len) ∨ (header = 0x02#8 ∧ 1024 < len)) →
    exec (.encode header seq fill payload len) s = .refused .encodeDomain

/-- The round-trip law of the codec: what ENCODE emits, VALIDATE finds Valid, with the payload and the fill where they were put
(R154). -/
def Obligations.EncodedFrameValidates : Prop :=
  ∀ (header seq fill : Byte) (n : Nat) (payload : List Byte) (acc : Half),
    ((header = 0x01#8 ∧ n = 128) ∨ (header = 0x02#8 ∧ n = 1024)) → payload.length ≤ n →
    (encodedFrame header seq fill n payload).length = n + 5 ∧
    (validate (encodedFrame header seq fill n payload) (n + 5) seq acc).1 = .valid ∧
    ((encodedFrame header seq fill n payload).drop 3).take payload.length = payload ∧
    ((encodedFrame header seq fill n payload).drop (3 + payload.length)).take (n - payload.length) =
      List.replicate (n - payload.length) fill

/-- `decimal(v)` is the shortest digit string of `v`: digits only, none leading zero, of value `v` (R160). -/
def Obligations.DecimalIsShortest : Prop :=
  ∀ v : Nat, 1 ≤ v →
    (∀ d ∈ decimal v, 0x30 ≤ d.toNat ∧ d.toNat ≤ 0x39) ∧
    (decimal v).head? ≠ some 0x30#8 ∧ decimal v ≠ [] ∧
    (decimal v).foldl (fun a d => a * 10 + (d.toNat - 0x30)) 0 = v

/-- ParseHeader accepts exactly R157's grammar: a name without NUL, NUL, a maximal run of digits of a value from 1 to below
FILESIZE_LIMIT, then anything. -/
def Obligations.ParseHeaderGrammar : Prop :=
  ∀ (limit : Nat) (p name : List Byte) (v : Nat), 1 ≤ limit →
    (parseHeader limit p = some (name, v) ↔
      ∃ digits tail, p = name ++ 0x00#8 :: (digits ++ tail) ∧ 0x00#8 ∉ name ∧ digits ≠ [] ∧
        (∀ d ∈ digits, 0x30 ≤ d.toNat ∧ d.toNat ≤ 0x39) ∧
        (∀ d, tail.head? = some d → ¬ (0x30 ≤ d.toNat ∧ d.toNat ≤ 0x39)) ∧
        digits.foldl (fun a d => a * 10 + (d.toNat - 0x30)) 0 = v ∧ 1 ≤ v ∧ v < limit)

/-- ParseHeader inverts BuildHeader on the padded 128-byte payload (R161). -/
def Obligations.ParseInvertsBuild : Prop :=
  ∀ (limit : Nat) (name : List Byte) (size : Nat), 0x00#8 ∉ name → 1 ≤ size → size < limit →
    (headerText name size).length ≤ 128 →
    parseHeader limit (padTo 128 0x00#8 (headerText name size)) = some (name, size)

/-! ### Reset and INIT -/

/-- Every value R50 gives for hardware reset, no INIT completed (R312), and nothing recorded yet (log 3). -/
def Obligations.ResetStateAsSpecified : Prop :=
  State.reset.rx.state = .idle ∧ State.reset.rx.asm = .awaitingSync ∧ State.reset.rx.fill = 0#11 ∧
  State.reset.rx.need = 0#11 ∧ State.reset.rx.pktSize = 0#11 ∧ State.reset.rx.seq = 0#8 ∧
  State.reset.rx.retry = 0#8 ∧ State.reset.rx.active = false ∧ State.reset.tx.phase = .txIdle ∧
  State.reset.inited = false ∧ State.reset.env.trace = []

/-- The numeric codes of RX_STATE (R27), ASM_STATE (R28), REASON (R30) and TX_PHASE (R36), and the results on their ports: 0, 1,
-1 in two's complement, ok 1, fail 0 (R31). -/
def Obligations.CodesAsTabulated : Prop :=
  [RxState.idle, .recvHeader, .recvData, .recvEotConfirm, .recvFinish, .recvErr, .recvTerm].map
    (fun x => (rxStateCode x).toNat) = [0, 1, 2, 3, 4, 5, 6] ∧
  [AsmState.awaitingSync, .awaitingBody].map (fun x => (asmStateCode x).toNat) = [0, 1] ∧
  [Reason.success, .timeout, .remoteTermination, .headerReceiveError, .headerParseError, .packetProcessingError,
    .endSequenceReceiveError].map (fun x => (reasonCode x).toNat) = [0, 1, 2, 3, 4, 5, 6] ∧
  [TxPhase.txIdle, .waitC1, .header, .waitC2, .data, .eotA, .eotB, .waitC3, .closing].map
    (fun x => (txPhaseCode x).toNat) = [0, 1, 2, 3, 4, 5, 6, 7, 8] ∧
  [RxStatus.noEvent, .success, .failure].map (fun x => (statusCode x).toInt) = [0, 1, -1] ∧
  sendCode true = 1#1 ∧ sendCode false = 0#1

/-- INIT with legal operands writes the six configuration registers, restores the reset state, and touches no port, whatever was
in progress on the receive side (R52, R315); it leaves RXBUF and TXBUF alone (the model's choice, log 9). -/
def Obligations.InitRestartsTheSession : Prop :=
  ∀ (s : State) (st tk ct : Word) (u : Nat) (rs ts : Half), s.tx.phase = .txIdle →
    1 ≤ st.toNat → st.toNat ≤ 2147483647 → 1 ≤ tk.toNat → tk.toNat ≤ 2147483647 → ct.toNat ≤ 2147483647 →
    u ≤ 1 → 1029 ≤ rs.toNat → 128 ≤ ts.toNat →
    ∃ t, exec (.init st tk ct u rs ts) s = .next t ∧
      t.cfg.sessionTimeout = st ∧ t.cfg.ackTimeout = tk ∧ t.cfg.charTimeout = ct ∧ t.cfg.use1k = decide (u = 1) ∧
      t.cfg.rxbufSize = rs ∧ t.cfg.txbufSize = ts ∧ t.inited = true ∧
      t.rx.state = .idle ∧ t.rx.asm = .awaitingSync ∧ t.rx.fill = 0#11 ∧ t.rx.need = 0#11 ∧ t.rx.pktSize = 0#11 ∧
      t.rx.seq = 0#8 ∧ t.rx.retry = 0#8 ∧ t.rx.active = false ∧ t.tx.phase = .txIdle ∧
      t.par = s.par ∧ t.rxbuf = s.rxbuf ∧ t.txbuf = s.txbuf ∧ did s t [] ∧ sameLink s t ∧
      t.env.answers = s.env.answers

/-- INIT with an operand outside its legal range is refused (R313): each bound of each operand, in the widths of log 20. -/
def Obligations.InitRefusesIllegalOperands : Prop :=
  ∀ (s : State) (st tk ct : Word) (u : Nat) (rs ts : Half), s.tx.phase = .txIdle →
    (st.toNat = 0 ∨ 2147483647 < st.toNat ∨ tk.toNat = 0 ∨ 2147483647 < tk.toNat ∨ 2147483647 < ct.toNat ∨
      2 ≤ u ∨ rs.toNat < 1029 ∨ ts.toNat < 128) →
    exec (.init st tk ct u rs ts) s = .refused .badConfiguration

/-- Before the first INIT, RX_STEP and SEND_FILE are refused (R312). -/
def Obligations.NoSessionBeforeInit : Prop :=
  ∀ (s : State) (name file : List Byte) (size : Nat), s.inited = false →
    exec .rxStep s = .refused .notInitialised ∧
    exec (.sendFile name size file) s = .refused .notInitialised

/-- While a SEND_FILE run is in progress no host operation is admitted (R320, R285); that this holds for CRC16 and VALIDATE,
and for INIT and ENCODE, is log 19. -/
def Obligations.OverlappingOperationsRefused : Prop :=
  ∀ (s : State) (i : Instr), s.inited = true → s.tx.phase ≠ .txIdle → i.isWire = false →
    exec i s = .refused .busy

/-- The configuration is read-only to every operation but INIT, which no run in progress admits (10_state.md R32, R320). Nothing
writes the parameters either: R8 and R37 make them arguments of the model, and that State holds them is the model's choice
(log 10). -/
def Obligations.ConfigurationWrittenOnlyByInit : Prop :=
  ∀ (s t : State), step s = .next t → t.par = s.par ∧
    (t.cfg = s.cfg ∨ s.tx.phase = .txIdle ∧ ∃ q rest, s.env.requests = q :: rest ∧ q.code = 0b001#3)

/-! ### RX_STEP -/

/-- Idle: the pending input is discarded, 'C' is sent, SEQ, RETRY and the assembler are cleared, the deadline is armed at the
value of the one Tick, RecvHeader is entered; ACTIVE, REASON and the sender are left (R186, R51). -/
def Obligations.IdlePollOpensSession : Prop :=
  ∀ s : State, listens s .idle →
    ∃ t, exec .rxStep s = .next t ∧
      t.rx = { s.rx.cleared with
        state := .recvHeader, seq := 0#8, retry := 0#8, last := s.env.readTick.1, now := s.env.readTick.1 } ∧
      rxbufCleared s t ∧ t.env = s.env.readTick.2.clearIn.put 0x43#8 ∧
      t.env.trace = s.env.trace ++ [.tick s.env.readTick.1, .clearIn, .put 0x43#8] ∧ t.env.linkIn = [] ∧
      t.result = .status .noEvent ∧ t.crcAcc = s.crcAcc ∧ sameSetting s t

/-- A poll of a receiving state in AwaitingSync that reads EOF: before the deadline nothing changes but the tick, the record and
the status; in RecvHeader the deadline returns to Idle and does nothing else; in the later states it is answered by NakRetry
(R181, R188, R199, R202, R208, R273). -/
def Obligations.SilentPollActsOnlyOnDeadline : Prop :=
  ∀ (s : State) (st : RxState) (rest : List (List Byte)), listens s st → st.receiving = true →
    s.rx.asm = .awaitingSync → s.env.linkIn = [] → s.env.arrivals = [] :: rest →
    let now := s.env.readTick.1
    let calls := [PortCall.tick now, .get s.cfg.charTimeout none]
    ∃ t, exec .rxStep s = .next t ∧ sameSetting s t ∧ t.crcAcc = s.crcAcc ∧ t.result = .status .noEvent ∧
      t.env.linkIn = [] ∧ t.env.arrivals = rest ∧ t.env.requests = s.env.requests ∧ t.env.answers = s.env.answers ∧
      (¬ s.cfg.sessionTimeout.toNat ≤ (now - s.rx.last).toNat →
        t.rx = { s.rx with now := now } ∧ t.rxbuf = s.rxbuf ∧ did s t calls) ∧
      (s.cfg.sessionTimeout.toNat ≤ (now - s.rx.last).toNat → st = .recvHeader →
        t.rx = { s.rx with now := now, state := .idle } ∧ t.rxbuf = s.rxbuf ∧ did s t calls) ∧
      (s.cfg.sessionTimeout.toNat ≤ (now - s.rx.last).toNat → st ≠ .recvHeader →
        t.rx = { s.rx with now := now }.afterNak (nakReason s.par st) ∧ rxbufCleared s t ∧
        did s t (calls ++ [.put 0x15#8]))

/-- A sync byte of SOH or STX opens a frame of 133 or 1029 bytes, in RXBUF at offset 0, and no more is read in that poll (R175,
R176, R95). The poll completes no unit, so a deadline that has passed is acted on (R185): RecvHeader returns to Idle and does
nothing else (R188), the later states drop the sync byte by a NakRetry (R199, R202, R208). -/
def Obligations.SyncByteOpensFrame : Prop :=
  ∀ (s : State) (st : RxState) (b : Byte) (n : Nat), listens s st → st.receiving = true →
    s.rx.asm = .awaitingSync → 1 ≤ s.cfg.rxbufSize.toNat →
    (s.env.readTick.2.get s.cfg.charTimeout).1 = some b →
    ((b = 0x01#8 ∧ n = 128) ∨ (b = 0x02#8 ∧ n = 1024)) →
    let now := s.env.readTick.1
    let after := (s.env.readTick.2.get s.cfg.charTimeout).2
    let calls := [PortCall.tick now, .get s.cfg.charTimeout (some b)]
    let opened := { s.rx with
      now := now, asm := .awaitingBody, fill := 1#11, pktSize := BitVec.ofNat 11 n, need := BitVec.ofNat 11 (n + 5) }
    ∃ t, exec .rxStep s = .next t ∧ t.result = .status .noEvent ∧ t.crcAcc = s.crcAcc ∧ sameSetting s t ∧
      (¬ s.cfg.sessionTimeout.toNat ≤ (now - s.rx.last).toNat →
        t.rx = opened ∧ (∀ a, t.rxbuf.read a = if a = 0 then b else s.rxbuf.read a) ∧
        t.env = after ∧ did s t calls) ∧
      (s.cfg.sessionTimeout.toNat ≤ (now - s.rx.last).toNat → st = .recvHeader →
        t.rx = { opened with state := .idle } ∧ (∀ a, t.rxbuf.read a = if a = 0 then b else s.rxbuf.read a) ∧
        t.env = after ∧ did s t calls) ∧
      (s.cfg.sessionTimeout.toNat ≤ (now - s.rx.last).toNat → st ≠ .recvHeader →
        t.rx = { s.rx with now := now }.afterNak (nakReason s.par st) ∧ rxbufCleared s t ∧
        t.env = after.put 0x15#8 ∧ did s t (calls ++ [.put 0x15#8]))

/-- A poll in AwaitingBody stores what LinkRecv hands over at the next offsets and asks for no more than the frame lacks; while the
frame is incomplete before the deadline nothing else happens, and the bytes do not re-arm it (R177, R182). A deadline that has
passed is acted on (R185): RecvHeader returns to Idle and does nothing else (R188), the later states drop the frame by a NakRetry
(R199, R202, R208). -/
def Obligations.BodyBytesStoredInOrder : Prop :=
  ∀ (s : State) (st : RxState), Sound s → listens s st → st.receiving = true → s.rx.asm = .awaitingBody →
    let now := s.env.readTick.1
    let lack := s.rx.need.toNat - s.rx.fill.toNat
    let got := (s.env.readTick.2.recv lack).1
    let after := (s.env.readTick.2.recv lack).2
    let calls := [PortCall.tick now, .recv lack got]
    let collected := { s.rx with now := now, fill := s.rx.fill + BitVec.ofNat 11 got.length }
    let stored := fun a =>
      if s.rx.fill.toNat ≤ a ∧ a < s.rx.fill.toNat + got.length then got.getD (a - s.rx.fill.toNat) 0#8
      else s.rxbuf.read a
    got.length < lack →
    ∃ t, exec .rxStep s = .next t ∧ t.result = .status .noEvent ∧ t.crcAcc = s.crcAcc ∧ sameSetting s t ∧
      (¬ s.cfg.sessionTimeout.toNat ≤ (now - s.rx.last).toNat →
        t.rx = collected ∧ (∀ a, t.rxbuf.read a = stored a) ∧ t.env = after ∧ did s t calls) ∧
      (s.cfg.sessionTimeout.toNat ≤ (now - s.rx.last).toNat → st = .recvHeader →
        t.rx = { collected with state := .idle } ∧ (∀ a, t.rxbuf.read a = stored a) ∧ t.env = after ∧ did s t calls) ∧
      (s.cfg.sessionTimeout.toNat ≤ (now - s.rx.last).toNat → st ≠ .recvHeader →
        t.rx = { s.rx with now := now }.afterNak (nakReason s.par st) ∧ rxbufCleared s t ∧
        t.env = after.put 0x15#8 ∧ did s t (calls ++ [.put 0x15#8]))

/-- RecvErr and RecvTerm: five CAN, then OnFinish with the stored reason, ACTIVE cleared, assembler reset, Idle, status -1; SEQ,
RETRY, LAST and REASON keep their values and the link is not read (60_exceptions.md R281). -/
def Obligations.TerminalActionDelivers : Prop :=
  ∀ (s : State) (st : RxState), listens s st → st = .recvErr ∨ st = .recvTerm →
    ∃ t, exec .rxStep s = .next t ∧
      t.rx = { s.rx.cleared with state := .idle, active := false, now := s.env.readTick.1 } ∧ rxbufCleared s t ∧
      did s t [.tick s.env.readTick.1, .put 0x18#8, .put 0x18#8, .put 0x18#8, .put 0x18#8, .put 0x18#8,
        .onFinish s.rx.reason] ∧
      t.env.linkIn = s.env.linkIn ∧ t.env.arrivals = s.env.arrivals ∧ t.env.requests = s.env.requests ∧
      t.result = .status .failure ∧ t.crcAcc = s.crcAcc ∧ sameSetting s t

/-! ### Units received in a receiving state -/

/-- EOT: in RecvData the NAK of the end handshake and RecvEotConfirm (R196); in RecvEotConfirm ACK, 'C' and RecvFinish with SEQ 0
(R200); in RecvHeader and RecvFinish a framing error (R192, R208). That the unit drops a frame in assembly is the model's choice,
log 14. -/
def Obligations.EotReceived : Prop :=
  ∀ (s : State) (st : RxState), listens s st → st.receiving = true → 1 ≤ s.cfg.rxbufSize.toNat →
    ∃ t, exec .eot s = .next t ∧ rxbufCleared s t ∧ sameSetting s t ∧ sameInputs s t ∧
      t.crcAcc = s.crcAcc ∧ t.result = .status .noEvent ∧
      (st = .recvData →
        t.rx = { s.rx.cleared with state := .recvEotConfirm, retry := 0#8, last := s.rx.now } ∧ did s t [.put 0x15#8]) ∧
      (st = .recvEotConfirm →
        t.rx = { s.rx.cleared with state := .recvFinish, seq := 0#8, retry := 0#8, last := s.rx.now } ∧
        did s t [.put 0x06#8, .put 0x43#8]) ∧
      (st = .recvHeader ∨ st = .recvFinish →
        t.rx = s.rx.afterNak (nakReason s.par st) ∧ did s t [.put 0x15#8])

/-- One CAN is terminal in every receiving state: REASON is remote termination, RecvTerm, nothing on the link (R197,
R201, R207). A step comes here only with the CAN as a candidate's first byte (R276); that exec, with a frame in assembly, drops the
frame and acts on the CAN is the model's choice, log 14. -/
def Obligations.CanReceivedTerminates : Prop :=
  ∀ (s : State) (st : RxState), listens s st → st.receiving = true → 1 ≤ s.cfg.rxbufSize.toNat →
    ∃ t, exec .can s = .next t ∧
      t.rx = { s.rx.cleared with state := .recvTerm, reason := .remoteTermination } ∧ rxbufCleared s t ∧
      did s t [] ∧ sameSetting s t ∧ sameInputs s t ∧ t.crcAcc = s.crcAcc ∧ t.result = .status .noEvent

/-- ACK, NAK and 'C' have no meaning to a receiver: one NAK, AsmReset, RETRY + 1, the deadline re-armed, SEQ unchanged, and the
third such event is terminal with the state's reason (R183, R192, R198, R202, R208; 'C' is a bad sync byte, R100). The same for an
RX_STEP that reads, as a sync byte, any byte that is none of the seven symbols: Invalid(sync) (R176, R100), whatever the deadline
(R185). That a unit drops a frame in assembly is the model's choice, log 14. -/
def Obligations.StraySymbolIsFramingError : Prop :=
  ∀ (s : State) (st : RxState), listens s st → st.receiving = true → 1 ≤ s.cfg.rxbufSize.toNat →
    (∀ i : Instr, i = .ack ∨ i = .nak ∨ i = .c →
      ∃ t, exec i s = .next t ∧ t.rx = s.rx.afterNak (nakReason s.par st) ∧ rxbufCleared s t ∧
        did s t [.put 0x15#8] ∧ sameSetting s t ∧ sameInputs s t ∧ t.crcAcc = s.crcAcc ∧ t.result = .status .noEvent) ∧
    (∀ b : Byte, s.rx.asm = .awaitingSync → (s.env.readTick.2.get s.cfg.charTimeout).1 = some b →
      b ∉ [0x01#8, 0x02#8, 0x04#8, 0x06#8, 0x15#8, 0x18#8, 0x43#8] →
      ∃ t, exec .rxStep s = .next t ∧
        t.rx = { s.rx with now := s.env.readTick.1 }.afterNak (nakReason s.par st) ∧ rxbufCleared s t ∧
        t.env = (s.env.readTick.2.get s.cfg.charTimeout).2.put 0x15#8 ∧
        did s t [.tick s.env.readTick.1, .get s.cfg.charTimeout (some b), .put 0x15#8] ∧
        sameSetting s t ∧ t.crcAcc = s.crcAcc ∧ t.result = .status .noEvent)

/-- A frame with a wrong complement, sequence or CRC, in any receiving state, and any frame in RecvEotConfirm: answered like a
stray symbol, and no callback is called; CRC_ACC is written only when the CRC was checked. A retransmission of the packet just
accepted falls here (R183, R148, R202). That the frame drops another one in assembly is the model's choice, log 14. -/
def Obligations.UnwantedFrameIsFramingError : Prop :=
  ∀ (s : State) (st : RxState) (i : Instr) (seq nseq : Byte) (payload : List Byte) (hi lo : Byte),
    isFrame i seq nseq payload hi lo → listens s st → st.receiving = true →
    payload.length + 5 ≤ s.cfg.rxbufSize.toNat →
    (¬ intact seq nseq payload hi lo ∨ seq ≠ s.rx.seq ∨ st = .recvEotConfirm) →
    ∃ t, exec i s = .next t ∧ t.rx = s.rx.afterNak (nakReason s.par st) ∧ rxbufCleared s t ∧
      did s t [.put 0x15#8] ∧ sameSetting s t ∧ sameInputs s t ∧ t.result = .status .noEvent ∧
      t.crcAcc = if seq ^^^ nseq = 0xFF#8 ∧ seq = s.rx.seq then crc16 0#16 payload else s.crcAcc

/-- A Valid data packet in RecvData: the whole padded payload goes to OnPacket. Accepted, it is answered ACK, SEQ counts on modulo
256, budget and deadline are renewed (R194); rejected, RecvErr with packet-processing error, no ACK, no NAK, SEQ kept (R195). That
the frame drops another one in assembly is the model's choice, log 14. -/
def Obligations.DataPacketReceived : Prop :=
  ∀ (s : State) (i : Instr) (seq nseq : Byte) (payload : List Byte) (hi lo : Byte) (a : Bool) (rest : List Bool),
    isFrame i seq nseq payload hi lo → listens s .recvData → payload.length + 5 ≤ s.cfg.rxbufSize.toNat →
    intact seq nseq payload hi lo → seq = s.rx.seq → s.env.answers = a :: rest →
    ∃ t, exec i s = .next t ∧ rxbufCleared s t ∧ sameLink s t ∧ t.env.answers = rest ∧ t.env.draws = s.env.draws ∧
      sameSetting s t ∧ t.crcAcc = crc16 0#16 payload ∧ t.result = .status .noEvent ∧
      (a = true →
        t.rx = { s.rx.cleared with seq := s.rx.seq + 1#8, retry := 0#8, last := s.rx.now } ∧
        did s t [.onPacket payload payload.length true, .put 0x06#8]) ∧
      (a = false →
        t.rx = { s.rx.cleared with state := .recvErr, reason := .packetProcessingError } ∧
        did s t [.onPacket payload payload.length false])

/-- A Valid frame in RecvHeader: a payload that does not parse is terminal and OnHeader is not called (R189); else OnHeader is
asked, a reject is terminal (R191), an accept is answered ACK, 'C' and opens RecvData with SEQ 1 and ACTIVE set (R190). That the
frame drops another one in assembly is the model's choice, log 14. -/
def Obligations.HeaderFrameReceived : Prop :=
  ∀ (s : State) (i : Instr) (seq nseq : Byte) (payload : List Byte) (hi lo : Byte) (a : Bool) (rest : List Bool),
    isFrame i seq nseq payload hi lo → listens s .recvHeader → payload.length + 5 ≤ s.cfg.rxbufSize.toNat →
    intact seq nseq payload hi lo → seq = s.rx.seq → s.env.answers = a :: rest →
    ∃ t, exec i s = .next t ∧ rxbufCleared s t ∧ sameLink s t ∧ t.env.draws = s.env.draws ∧ sameSetting s t ∧
      t.crcAcc = crc16 0#16 payload ∧ t.result = .status .noEvent ∧
      (parseHeader s.par.filesizeLimit payload = none →
        t.rx = { s.rx.cleared with state := .recvErr, reason := .headerParseError } ∧ did s t [] ∧
        t.env.answers = s.env.answers) ∧
      (∀ name size, parseHeader s.par.filesizeLimit payload = some (name, size) →
        t.env.answers = rest ∧
        (a = false → t.rx = { s.rx.cleared with state := .recvErr, reason := .headerParseError } ∧
          did s t [.onHeader name size false]) ∧
        (a = true →
          t.rx = { s.rx.cleared with
            state := .recvData, seq := 1#8, active := true, retry := 0#8, last := s.rx.now } ∧
          did s t [.onHeader name size true, .put 0x06#8, .put 0x43#8]))

/-- A Valid frame in RecvFinish: payload byte 0 = 0x00 is the end of the batch, answered ACK, ACTIVE cleared, OnFinish(success),
status 1 (R205); any other payload byte 0 announces another file and is terminal, with nothing on the link (R206). That the frame
drops another one in assembly is the model's choice, log 14. -/
def Obligations.ClosingFrameReceived : Prop :=
  ∀ (s : State) (i : Instr) (seq nseq first : Byte) (others : List Byte) (hi lo : Byte),
    isFrame i seq nseq (first :: others) hi lo → listens s .recvFinish →
    (first :: others).length + 5 ≤ s.cfg.rxbufSize.toNat →
    intact seq nseq (first :: others) hi lo → seq = s.rx.seq →
    ∃ t, exec i s = .next t ∧ rxbufCleared s t ∧ sameInputs s t ∧ sameSetting s t ∧
      t.crcAcc = crc16 0#16 (first :: others) ∧
      (first = 0x00#8 →
        t.rx = { s.rx.cleared with state := .idle, active := false } ∧ did s t [.put 0x06#8, .onFinish .success] ∧
        t.result = .status .success) ∧
      (first ≠ 0x00#8 →
        t.rx = { s.rx.cleared with state := .recvTerm, reason := .remoteTermination } ∧ did s t [] ∧
        t.result = .status .noEvent)

/-- Where nothing reads the link, a unit stays in the pending input and nothing else changes (R101, 20_memory.md R79; that an
instruction then means this is log 14). -/
def Obligations.UnreadUnitStaysPending : Prop :=
  ∀ (s : State) (i : Instr), i.isWire = true → deaf s →
    exec i s = .next { s with env := { s.env with linkIn := s.env.linkIn ++ wireBytes i } }

/-! ### The sender -/

/-- SEND_FILE with admissible operands in an idle session begins the run with the wait for the peer's 'C': nothing is put on the
link yet, and the receiver's state is not touched (R230, R236, R237; the position before an attempt is log 23). -/
def Obligations.SendFileBegins : Prop :=
  ∀ (s : State) (name file : List Byte) (size : Nat), listens s .idle →
    0x00#8 ∉ name → 1 ≤ size → size < s.par.filesizeLimit → name.length + 1 + (decimal size).length ≤ 128 →
    size ≤ file.length →
    ∃ t, exec (.sendFile name size file) s = .next t ∧
      t.tx = { s.tx with phase := .waitC1, attempt := 0#8, waiting := false, name := name, size := size, file := file } ∧
      sameReceiver s t ∧ t.crcAcc = s.crcAcc ∧ t.txbuf = s.txbuf ∧ t.env = s.env ∧ t.result = .none

/-- SEND_FILE is refused outside Idle (R320) and with operands that are not Admissible (R237): each of the four conditions. -/
def Obligations.SendFileRefused : Prop :=
  ∀ (s : State) (name file : List Byte) (size : Nat), s.inited = true → s.tx.phase = .txIdle →
    (s.rx.state ≠ .idle → exec (.sendFile name size file) s = .refused .notIdle) ∧
    (s.rx.state = .idle →
      (0x00#8 ∈ name ∨ size = 0 ∨ s.par.filesizeLimit ≤ size ∨ 128 < name.length + 1 + (decimal size).length ∨
        file.length < size) →
      exec (.sendFile name size file) s = .refused .inadmissible)

/-- An attempt that sends no frame: a wait for 'C' puts nothing, an EOT phase puts one EOT, neither flushes; the attempt is
counted, the wait is armed at one Tick (R233, R246, R247, R241; one attempt is one step: log 1). -/
def Obligations.ShortAttemptBegins : Prop :=
  ∀ (s : State) (p : TxPhase), s.tx.phase = p → s.tx.waiting = false →
    s.tx.attempt.toNat < s.par.txRetryLimit.toNat →
    p ∈ [TxPhase.waitC1, .waitC2, .waitC3, .eotA, .eotB] →
    ∃ t, step s = .next t ∧
      t.tx = { s.tx with attempt := s.tx.attempt + 1#8, waiting := true, t0 := s.env.readTick.1 } ∧
      did s t ((if p = .eotA ∨ p = .eotB then [.put 0x04#8] else []) ++ [.tick s.env.readTick.1]) ∧
      t.env.linkIn = s.env.linkIn ∧ t.env.requests = s.env.requests ∧
      sameReceiver s t ∧ t.crcAcc = s.crcAcc ∧ t.txbuf = s.txbuf ∧ t.result = s.result

/-- An attempt that sends a frame, from a sound run: the header packet (R238), the closing packet (R249), or the data packet at
TX_OFF with the size choice of R242; the whole frame, one flush, then the wait (R234, R241; one attempt is one step:
log 1); CRC_ACC keeps the frame's CRC. -/
def Obligations.FrameAttemptBegins : Prop :=
  ∀ (s : State), Sound s → s.tx.waiting = false → s.tx.attempt.toNat < s.par.txRetryLimit.toNat →
    s.tx.phase ∈ [TxPhase.header, .data, .closing] →
    let rem := s.tx.size - s.tx.off.toNat
    let large := s.cfg.use1k = true ∧ 1024 ≤ rem
    let frame :=
      if s.tx.phase = .header then wireFrame 0x01#8 0#8 0x00#8 128 (s.tx.name ++ 0x00#8 :: decimal s.tx.size)
      else if s.tx.phase = .closing then wireFrame 0x01#8 0#8 0x00#8 128 []
      else if large then wireFrame 0x02#8 s.tx.seq 0x1A#8 1024 ((s.tx.file.drop s.tx.off.toNat).take 1024)
      else wireFrame 0x01#8 s.tx.seq 0x1A#8 128 ((s.tx.file.drop s.tx.off.toNat).take (min rem 128))
    ∃ t, step s = .next t ∧
      t.tx = { s.tx with attempt := s.tx.attempt + 1#8, waiting := true, t0 := s.env.readTick.1 } ∧
      t.env.trace = s.env.trace ++ frame.map .put ++ [.flush, .tick s.env.readTick.1] ∧ t.env.linkOut = [] ∧
      t.env.linkIn = s.env.linkIn ∧ t.env.requests = s.env.requests ∧
      t.crcAcc = crc16 0#16 ((frame.drop 3).take (frame.length - 5)) ∧
      sameReceiver s t ∧ t.txbuf = s.txbuf ∧ t.result = s.result

/-- When the attempts of a step are used up the run fails at once: nothing more is put, TX_PHASE returns to TxIdle, the other
sender registers keep their values (R250; that this is a step of its own is logs 1, 23). -/
def Obligations.ExhaustedBudgetFails : Prop :=
  ∀ s : State, s.tx.phase ≠ .txIdle → s.tx.waiting = false →
    s.par.txRetryLimit.toNat ≤ s.tx.attempt.toNat →
    step s = .next { s with tx := { s.tx with phase := .txIdle }, result := .send false }

/-- 'C' read in a wait for it ends that step: the first begins the header packet, with name, NUL and decimal size in TXBUF; the
second the data phase at offset 0 with sequence 1; the third the closing packet (R233, R238, R239, R248). TX_ATTEMPT is 0 when a
step of the procedure is entered (R36; that it is so before the first attempt is the model's choice, log 23). -/
def Obligations.WaitForCSucceeds : Prop :=
  ∀ (s : State) (p : TxPhase), awaits s p → p = .waitC1 ∨ p = .waitC2 ∨ p = .waitC3 →
    (s.tx.name ++ 0x00#8 :: decimal s.tx.size).length ≤ s.cfg.txbufSize.toNat →
    ∃ t, exec .c s = .next t ∧ sameReceiver s t ∧ t.crcAcc = s.crcAcc ∧ t.env = s.env ∧ t.result = s.result ∧
      (p = .waitC1 →
        t.tx = { s.tx with phase := .header, attempt := 0#8, waiting := false } ∧
        (∀ a, t.txbuf.read a =
          if a < (s.tx.name ++ 0x00#8 :: decimal s.tx.size).length
          then (s.tx.name ++ 0x00#8 :: decimal s.tx.size).getD a 0#8 else s.txbuf.read a)) ∧
      (p = .waitC2 →
        t.tx = { s.tx with
          phase := if 0 < s.tx.size then .data else .eotA, attempt := 0#8, waiting := false, seq := 1#8, off := 0#32 } ∧
        t.txbuf = s.txbuf) ∧
      (p = .waitC3 →
        t.tx = { s.tx with phase := .closing, attempt := 0#8, waiting := false } ∧ t.txbuf = s.txbuf)

/-- ACK read in the waits that accept it: the next step of R230 begins; after a data packet TX_SEQ counts on modulo 256 and TX_OFF
by the bytes sent, and the phase lasts while bytes remain; after the closing packet the run ends with ok (R234, R239, R243, R244,
R247, R249). TX_ATTEMPT is 0 when a step of the procedure is entered (R36; that it is so before the first attempt is the model's
choice, log 23). -/
def Obligations.AckAdvancesTheRun : Prop :=
  ∀ (s : State) (p : TxPhase), awaits s p → p ∈ [TxPhase.header, .data, .eotB, .closing] →
    let m := if s.cfg.use1k = true ∧ 1024 ≤ s.tx.size - s.tx.off.toNat then 1024 else min (s.tx.size - s.tx.off.toNat) 128
    let off' := s.tx.off + BitVec.ofNat 32 m
    ∃ t, exec .ack s = .next t ∧ sameReceiver s t ∧ t.crcAcc = s.crcAcc ∧ t.env = s.env ∧ t.txbuf = s.txbuf ∧
      (p = .header →
        t.tx = { s.tx with phase := .waitC2, attempt := 0#8, waiting := false } ∧ t.result = s.result) ∧
      (p = .data →
        t.tx = { s.tx with
          phase := if off'.toNat < s.tx.size then .data else .eotA
          attempt := 0#8, waiting := false, seq := s.tx.seq + 1#8, off := off' } ∧ t.result = s.result) ∧
      (p = .eotB →
        t.tx = { s.tx with phase := .waitC3, attempt := 0#8, waiting := false } ∧ t.result = s.result) ∧
      (p = .closing →
        t.tx = { s.tx with phase := .txIdle, waiting := false } ∧ t.result = .send true)

/-- NAK read in a wait: it is the answer EotA waits for (R246); after a frame or the second EOT it ends the attempt, and the next
one repeats it (R234, R247). TX_ATTEMPT is 0 when a step of the procedure is entered (R36; that it is so before the first attempt
is the model's choice, log 23). -/
def Obligations.NakInAWait : Prop :=
  ∀ (s : State) (p : TxPhase), awaits s p → p ∈ [TxPhase.header, .data, .eotA, .eotB, .closing] →
    ∃ t, exec .nak s = .next t ∧ sameReceiver s t ∧ t.crcAcc = s.crcAcc ∧ t.env = s.env ∧ t.txbuf = s.txbuf ∧
      t.result = s.result ∧
      t.tx = if p = .eotA then { s.tx with phase := .eotB, attempt := 0#8, waiting := false }
        else { s.tx with waiting := false }

/-- A CAN read in any wait ends the run with fail at once; nothing is put on the link (R251, R250). -/
def Obligations.CanEndsTheRun : Prop :=
  ∀ (s : State) (p : TxPhase), awaits s p →
    exec .can s = .next { s with tx := { s.tx with phase := .txIdle, waiting := false }, result := .send false }

/-- A symbol outside the wait's accept set is dropped and only the time is tested: an EOT in any wait, a 'C' in a wait for an
acknowledgement, an ACK or NAK in a wait for 'C', an ACK in EotA (R232, R246). The wait ends TimedOut exactly when CFG_ACK_TIMEOUT
ticks have passed since TX_T0. -/
def Obligations.OtherSymbolIsDropped : Prop :=
  ∀ (s : State) (p : TxPhase) (i : Instr), awaits s p →
    (i = .eot ∨
     (i = .c ∧ p ∈ [TxPhase.header, .data, .eotA, .eotB, .closing]) ∨
     ((i = .ack ∨ i = .nak) ∧ p ∈ [TxPhase.waitC1, .waitC2, .waitC3]) ∨ (i = .ack ∧ p = .eotA)) →
    exec i s = .next { s with
      env := s.env.readTick.2
      tx := { s.tx with
        waiting := decide (¬ s.cfg.ackTimeout.toNat ≤ (s.env.readTick.1 - s.tx.t0).toNat) } }

/-- A frame that reaches a sender's wait: its header byte is read and dropped, its other bytes are next on the link (R102; log
15). -/
def Obligations.FrameInAWaitIsReadBytewise : Prop :=
  ∀ (s : State) (p : TxPhase) (i : Instr) (seq nseq : Byte) (payload : List Byte) (hi lo : Byte),
    awaits s p → isFrame i seq nseq payload hi lo →
    ∃ t, exec i s = .next t ∧
      t.env.linkIn = seq :: nseq :: (payload ++ [hi, lo]) ++ s.env.linkIn ∧
      t.env.trace = s.env.trace ++ [.tick s.env.readTick.1] ∧ t.env.linkOut = s.env.linkOut ∧
      t.env.requests = s.env.requests ∧ t.env.arrivals = s.env.arrivals ∧ t.env.answers = s.env.answers ∧
      t.tx = { s.tx with
        waiting := decide (¬ s.cfg.ackTimeout.toNat ≤ (s.env.readTick.1 - s.tx.t0).toNat) } ∧
      sameReceiver s t ∧ t.crcAcc = s.crcAcc ∧ t.txbuf = s.txbuf ∧ t.result = s.result

/-! ### The block as a whole -/

/-- The invariant holds after hardware reset (R50; the values R50 leaves open are logs 5, 6, 7). -/
def Obligations.ResetIsSound : Prop := Sound State.reset

/-- Every step from a sound state leads to a sound state: the buffers stay canonical, the assembler's registers agree, RETRY stays
within the budget, ACTIVE, SEQ and REASON are what the state says, a session is used in one direction at a time (R24, R26, R28,
R29, R32, R78, R272, R312, R313, R320; that FILESIZE_LIMIT is at most 2^32 is log 26). -/
def Obligations.StepKeepsInvariant : Prop :=
  ∀ s t : State, Sound s → step s = .next t → Sound t

/-- No step from a sound state writes outside RXBUF or TXBUF or reads outside FILE (20_memory.md R66): those are the accesses that
the model's faults test (log 18); a read of RXBUF or TXBUF is total in the model and this says nothing of it. -/
def Obligations.NoAccessOutsideASpace : Prop :=
  ∀ (s : State) (f : Fault), Sound s → step s ≠ .fault f

/-- What one RX_STEP does on its ports: one Tick first; at most one link read, one callback and five bytes, all of them 'C', ACK,
NAK or CAN; no flush and no delay (R172, R180, R209). -/
def Obligations.RxStepPortDiscipline : Prop :=
  ∀ s t : State, exec .rxStep s = .next t →
    ∃ rest, t.env.trace = s.env.trace ++ .tick s.env.readTick.1 :: rest ∧
      rest.all receiverMay = true ∧ rest.countP isTick = 0 ∧ rest.countP isLinkRead ≤ 1 ∧ rest.countP isCallback ≤ 1 ∧
      (putsOf rest).length ≤ 5

/-- The status of an RX_STEP and OnFinish go together: 0 without a call; 1 with OnFinish(success) as the last transaction, right
after one ACK and no CAN; -1 with OnFinish(REASON) as the last, right after exactly five CAN. A step that calls OnFinish ends in
Idle, so an Idle action comes before the next call (R173, 60_exceptions.md R283). -/
def Obligations.StatusTellsOnFinish : Prop :=
  ∀ s t : State, exec .rxStep s = .next t →
    ∃ calls r, t.env.trace = s.env.trace ++ calls ∧ t.result = .status r ∧
      (r = .noEvent → finishesOf calls = []) ∧
      (r = .success → (∃ before, calls = before ++ [.put 0x06#8, .onFinish .success]) ∧
        finishesOf calls = [.success] ∧ putsOf calls = [0x06#8] ∧ s.rx.state = .recvFinish ∧ t.rx.state = .idle) ∧
      (r = .failure →
        (∃ before, calls = before ++ (List.replicate 5 (.put 0x18#8) ++ [.onFinish s.rx.reason])) ∧
        finishesOf calls = [s.rx.reason] ∧ putsOf calls = List.replicate 5 0x18#8 ∧
        (s.rx.state = .recvErr ∨ s.rx.state = .recvTerm) ∧ t.rx.state = .idle)

/-- Who writes ACTIVE: it becomes 1 only by the acceptance of a header packet in RecvHeader; it becomes 0 only by the successful
finish in RecvFinish, the terminal action of RecvErr or RecvTerm, or an INIT (10_state.md R29, R50). -/
def Obligations.ActiveWrittenByItsEvents : Prop :=
  ∀ s t : State, step s = .next t →
    (s.rx.active = false → t.rx.active = true →
      s.rx.state = .recvHeader ∧ t.rx.state = .recvData ∧
      ∃ calls name size, t.env.trace = s.env.trace ++ calls ++ [.onHeader name size true, .put 0x06#8, .put 0x43#8]) ∧
    (s.rx.active = true → t.rx.active = false → t.rx.state = .idle ∧
      ((s.rx.state = .recvFinish ∧ t.result = .status .success) ∨
       ((s.rx.state = .recvErr ∨ s.rx.state = .recvTerm) ∧ t.result = .status .failure) ∨
       ∃ q rest, s.env.requests = q :: rest ∧ q.code = 0b001#3))

/-- A step of a SEND_FILE run uses LinkPut, LinkFlush, LinkGet and Tick only, leaves the receiver and CFG alone, and never puts a
lone ACK, NAK, CAN or 'C': it puts nothing, one EOT, or one whole frame beginning SOH or STX (R252). -/
def Obligations.SenderPortDiscipline : Prop :=
  ∀ s t : State, s.tx.phase ≠ .txIdle → step s = .next t →
    ∃ calls, t.env.trace = s.env.trace ++ calls ∧ calls.all senderMay = true ∧ sameReceiver s t ∧
      (putsOf calls = [] ∨ putsOf calls = [0x04#8] ∨
        ∃ h rest, putsOf calls = h :: rest ∧
          ((h = 0x01#8 ∧ rest.length = 132) ∨ (h = 0x02#8 ∧ rest.length = 1028)))

/-- The order of the procedure: a run leaves a phase only for the next one of R230, and only by reading the byte that phase waits
for, or for TxIdle, when it fails or ends (R230, R250). No data packet is sent unless the header packet was acknowledged. -/
def Obligations.RunFollowsTheProcedure : Prop :=
  ∀ s t : State, s.tx.phase ≠ .txIdle → step s = .next t → t.tx.phase ≠ s.tx.phase →
    (t.tx.phase = .txIdle ∧ t.result = .send false) ∨
    ∃ calls b, t.env.trace = s.env.trace ++ calls ∧ calls = [.get s.cfg.charTimeout (some b)] ∧ s.tx.waiting = true ∧
      ((s.tx.phase = .waitC1 ∧ t.tx.phase = .header ∧ b = 0x43#8) ∨
       (s.tx.phase = .header ∧ t.tx.phase = .waitC2 ∧ b = 0x06#8) ∨
       (s.tx.phase = .waitC2 ∧ (t.tx.phase = .data ∨ t.tx.phase = .eotA) ∧ b = 0x43#8) ∨
       (s.tx.phase = .data ∧ t.tx.phase = .eotA ∧ b = 0x06#8) ∨
       (s.tx.phase = .eotA ∧ t.tx.phase = .eotB ∧ b = 0x15#8) ∨
       (s.tx.phase = .eotB ∧ t.tx.phase = .waitC3 ∧ b = 0x06#8) ∨
       (s.tx.phase = .waitC3 ∧ t.tx.phase = .closing ∧ b = 0x43#8) ∨
       (s.tx.phase = .closing ∧ t.tx.phase = .txIdle ∧ b = 0x06#8 ∧ t.result = .send true))

/-- The header packet never acknowledged: with a silent peer and waits that expire at their first time test, the run ends with
fail after exactly TX_RETRY_LIMIT transmissions of the header frame, each flushed, and no data packet (R253; the number of steps is
the model's, log 1). -/
def Obligations.SilentPeerFailsAfterHeaderRetries : Prop :=
  ∀ (s : State) (d : BitVec 31) (moreTicks : List (BitVec 31)) (moreIn : List (List Byte)),
    Sound s → s.tx.phase = .header → s.tx.attempt = 0#8 → s.tx.waiting = false → s.env.linkIn = [] →
    s.cfg.ackTimeout.toNat ≤ d.toNat →
    s.env.advances = List.replicate (2 * s.par.txRetryLimit.toNat) d ++ moreTicks →
    s.env.arrivals = List.replicate s.par.txRetryLimit.toNat [] ++ moreIn →
    ∃ t calls, Sys2Proof.core.run (2 * s.par.txRetryLimit.toNat + 1) s = .next t ∧
      t.tx.phase = .txIdle ∧ t.result = .send false ∧ t.env.trace = s.env.trace ++ calls ∧
      putsOf calls = (List.replicate s.par.txRetryLimit.toNat
        (wireFrame 0x01#8 0#8 0x00#8 128 (s.tx.name ++ 0x00#8 :: decimal s.tx.size))).flatten ∧
      calls.count .flush = s.par.txRetryLimit.toNat
end

