-- ==== Sys2Proof/Laws/State.lean ====
section
/-! SUPPORT. One lemma per field per update of the state and of the environment, each true by rfl, so that no later proof unfolds
a record update. -/

namespace Sys2Proof.Machine

/-! ### setActive -/

@[simp] theorem State.setActive_par (s : State) (v : Bool) : (s.setActive v).par = s.par := rfl
@[simp] theorem State.setActive_cfg (s : State) (v : Bool) : (s.setActive v).cfg = s.cfg := rfl
@[simp] theorem State.setActive_inited (s : State) (v : Bool) : (s.setActive v).inited = s.inited := rfl
@[simp] theorem State.setActive_rx_state (s : State) (v : Bool) : (s.setActive v).rx.state = s.rx.state := rfl
@[simp] theorem State.setActive_rx_asm (s : State) (v : Bool) : (s.setActive v).rx.asm = s.rx.asm := rfl
@[simp] theorem State.setActive_rx_seq (s : State) (v : Bool) : (s.setActive v).rx.seq = s.rx.seq := rfl
@[simp] theorem State.setActive_rx_pktSize (s : State) (v : Bool) : (s.setActive v).rx.pktSize = s.rx.pktSize := rfl
@[simp] theorem State.setActive_rx_retry (s : State) (v : Bool) : (s.setActive v).rx.retry = s.rx.retry := rfl
@[simp] theorem State.setActive_rx_last (s : State) (v : Bool) : (s.setActive v).rx.last = s.rx.last := rfl
@[simp] theorem State.setActive_rx_fill (s : State) (v : Bool) : (s.setActive v).rx.fill = s.rx.fill := rfl
@[simp] theorem State.setActive_rx_need (s : State) (v : Bool) : (s.setActive v).rx.need = s.rx.need := rfl
@[simp] theorem State.setActive_rx_active (s : State) (v : Bool) : (s.setActive v).rx.active = v := rfl
@[simp] theorem State.setActive_rx_reason (s : State) (v : Bool) : (s.setActive v).rx.reason = s.rx.reason := rfl
@[simp] theorem State.setActive_rx_now (s : State) (v : Bool) : (s.setActive v).rx.now = s.rx.now := rfl
@[simp] theorem State.setActive_tx (s : State) (v : Bool) : (s.setActive v).tx = s.tx := rfl
@[simp] theorem State.setActive_crcAcc (s : State) (v : Bool) : (s.setActive v).crcAcc = s.crcAcc := rfl
@[simp] theorem State.setActive_rxbuf (s : State) (v : Bool) : (s.setActive v).rxbuf = s.rxbuf := rfl
@[simp] theorem State.setActive_txbuf (s : State) (v : Bool) : (s.setActive v).txbuf = s.txbuf := rfl
@[simp] theorem State.setActive_env (s : State) (v : Bool) : (s.setActive v).env = s.env := rfl
@[simp] theorem State.setActive_result (s : State) (v : Bool) : (s.setActive v).result = s.result := rfl

/-! ### setSeq -/

@[simp] theorem State.setSeq_par (s : State) (v : Byte) : (s.setSeq v).par = s.par := rfl
@[simp] theorem State.setSeq_cfg (s : State) (v : Byte) : (s.setSeq v).cfg = s.cfg := rfl
@[simp] theorem State.setSeq_inited (s : State) (v : Byte) : (s.setSeq v).inited = s.inited := rfl
@[simp] theorem State.setSeq_rx_state (s : State) (v : Byte) : (s.setSeq v).rx.state = s.rx.state := rfl
@[simp] theorem State.setSeq_rx_asm (s : State) (v : Byte) : (s.setSeq v).rx.asm = s.rx.asm := rfl
@[simp] theorem State.setSeq_rx_seq (s : State) (v : Byte) : (s.setSeq v).rx.seq = v := rfl
@[simp] theorem State.setSeq_rx_pktSize (s : State) (v : Byte) : (s.setSeq v).rx.pktSize = s.rx.pktSize := rfl
@[simp] theorem State.setSeq_rx_retry (s : State) (v : Byte) : (s.setSeq v).rx.retry = s.rx.retry := rfl
@[simp] theorem State.setSeq_rx_last (s : State) (v : Byte) : (s.setSeq v).rx.last = s.rx.last := rfl
@[simp] theorem State.setSeq_rx_fill (s : State) (v : Byte) : (s.setSeq v).rx.fill = s.rx.fill := rfl
@[simp] theorem State.setSeq_rx_need (s : State) (v : Byte) : (s.setSeq v).rx.need = s.rx.need := rfl
@[simp] theorem State.setSeq_rx_active (s : State) (v : Byte) : (s.setSeq v).rx.active = s.rx.active := rfl
@[simp] theorem State.setSeq_rx_reason (s : State) (v : Byte) : (s.setSeq v).rx.reason = s.rx.reason := rfl
@[simp] theorem State.setSeq_rx_now (s : State) (v : Byte) : (s.setSeq v).rx.now = s.rx.now := rfl
@[simp] theorem State.setSeq_tx (s : State) (v : Byte) : (s.setSeq v).tx = s.tx := rfl
@[simp] theorem State.setSeq_crcAcc (s : State) (v : Byte) : (s.setSeq v).crcAcc = s.crcAcc := rfl
@[simp] theorem State.setSeq_rxbuf (s : State) (v : Byte) : (s.setSeq v).rxbuf = s.rxbuf := rfl
@[simp] theorem State.setSeq_txbuf (s : State) (v : Byte) : (s.setSeq v).txbuf = s.txbuf := rfl
@[simp] theorem State.setSeq_env (s : State) (v : Byte) : (s.setSeq v).env = s.env := rfl
@[simp] theorem State.setSeq_result (s : State) (v : Byte) : (s.setSeq v).result = s.result := rfl

/-! ### goto -/

@[simp] theorem State.goto_par (s : State) (v : RxState) : (s.goto v).par = s.par := rfl
@[simp] theorem State.goto_cfg (s : State) (v : RxState) : (s.goto v).cfg = s.cfg := rfl
@[simp] theorem State.goto_inited (s : State) (v : RxState) : (s.goto v).inited = s.inited := rfl
@[simp] theorem State.goto_rx_state (s : State) (v : RxState) : (s.goto v).rx.state = v := rfl
@[simp] theorem State.goto_rx_asm (s : State) (v : RxState) : (s.goto v).rx.asm = s.rx.asm := rfl
@[simp] theorem State.goto_rx_seq (s : State) (v : RxState) : (s.goto v).rx.seq = s.rx.seq := rfl
@[simp] theorem State.goto_rx_pktSize (s : State) (v : RxState) : (s.goto v).rx.pktSize = s.rx.pktSize := rfl
@[simp] theorem State.goto_rx_retry (s : State) (v : RxState) : (s.goto v).rx.retry = s.rx.retry := rfl
@[simp] theorem State.goto_rx_last (s : State) (v : RxState) : (s.goto v).rx.last = s.rx.last := rfl
@[simp] theorem State.goto_rx_fill (s : State) (v : RxState) : (s.goto v).rx.fill = s.rx.fill := rfl
@[simp] theorem State.goto_rx_need (s : State) (v : RxState) : (s.goto v).rx.need = s.rx.need := rfl
@[simp] theorem State.goto_rx_active (s : State) (v : RxState) : (s.goto v).rx.active = s.rx.active := rfl
@[simp] theorem State.goto_rx_reason (s : State) (v : RxState) : (s.goto v).rx.reason = s.rx.reason := rfl
@[simp] theorem State.goto_rx_now (s : State) (v : RxState) : (s.goto v).rx.now = s.rx.now := rfl
@[simp] theorem State.goto_tx (s : State) (v : RxState) : (s.goto v).tx = s.tx := rfl
@[simp] theorem State.goto_crcAcc (s : State) (v : RxState) : (s.goto v).crcAcc = s.crcAcc := rfl
@[simp] theorem State.goto_rxbuf (s : State) (v : RxState) : (s.goto v).rxbuf = s.rxbuf := rfl
@[simp] theorem State.goto_txbuf (s : State) (v : RxState) : (s.goto v).txbuf = s.txbuf := rfl
@[simp] theorem State.goto_env (s : State) (v : RxState) : (s.goto v).env = s.env := rfl
@[simp] theorem State.goto_result (s : State) (v : RxState) : (s.goto v).result = s.result := rfl

/-! ### terminal -/

@[simp] theorem State.terminal_par (s : State) (r : Reason) (via : RxState) : (s.terminal r via).par = s.par := rfl
@[simp] theorem State.terminal_cfg (s : State) (r : Reason) (via : RxState) : (s.terminal r via).cfg = s.cfg := rfl
@[simp] theorem State.terminal_inited (s : State) (r : Reason) (via : RxState) : (s.terminal r via).inited = s.inited := rfl
@[simp] theorem State.terminal_rx_state (s : State) (r : Reason) (via : RxState) : (s.terminal r via).rx.state = via := rfl
@[simp] theorem State.terminal_rx_asm (s : State) (r : Reason) (via : RxState) : (s.terminal r via).rx.asm = s.rx.asm := rfl
@[simp] theorem State.terminal_rx_seq (s : State) (r : Reason) (via : RxState) : (s.terminal r via).rx.seq = s.rx.seq := rfl
@[simp] theorem State.terminal_rx_pktSize (s : State) (r : Reason) (via : RxState) : (s.terminal r via).rx.pktSize = s.rx.pktSize := rfl
@[simp] theorem State.terminal_rx_retry (s : State) (r : Reason) (via : RxState) : (s.terminal r via).rx.retry = s.rx.retry := rfl
@[simp] theorem State.terminal_rx_last (s : State) (r : Reason) (via : RxState) : (s.terminal r via).rx.last = s.rx.last := rfl
@[simp] theorem State.terminal_rx_fill (s : State) (r : Reason) (via : RxState) : (s.terminal r via).rx.fill = s.rx.fill := rfl
@[simp] theorem State.terminal_rx_need (s : State) (r : Reason) (via : RxState) : (s.terminal r via).rx.need = s.rx.need := rfl
@[simp] theorem State.terminal_rx_active (s : State) (r : Reason) (via : RxState) : (s.terminal r via).rx.active = s.rx.active := rfl
@[simp] theorem State.terminal_rx_reason (s : State) (r : Reason) (via : RxState) : (s.terminal r via).rx.reason = r := rfl
@[simp] theorem State.terminal_rx_now (s : State) (r : Reason) (via : RxState) : (s.terminal r via).rx.now = s.rx.now := rfl
@[simp] theorem State.terminal_tx (s : State) (r : Reason) (via : RxState) : (s.terminal r via).tx = s.tx := rfl
@[simp] theorem State.terminal_crcAcc (s : State) (r : Reason) (via : RxState) : (s.terminal r via).crcAcc = s.crcAcc := rfl
@[simp] theorem State.terminal_rxbuf (s : State) (r : Reason) (via : RxState) : (s.terminal r via).rxbuf = s.rxbuf := rfl
@[simp] theorem State.terminal_txbuf (s : State) (r : Reason) (via : RxState) : (s.terminal r via).txbuf = s.txbuf := rfl
@[simp] theorem State.terminal_env (s : State) (r : Reason) (via : RxState) : (s.terminal r via).env = s.env := rfl
@[simp] theorem State.terminal_result (s : State) (r : Reason) (via : RxState) : (s.terminal r via).result = s.result := rfl

/-! ### progress -/

@[simp] theorem State.progress_par (s : State) : (s.progress).par = s.par := rfl
@[simp] theorem State.progress_cfg (s : State) : (s.progress).cfg = s.cfg := rfl
@[simp] theorem State.progress_inited (s : State) : (s.progress).inited = s.inited := rfl
@[simp] theorem State.progress_rx_state (s : State) : (s.progress).rx.state = s.rx.state := rfl
@[simp] theorem State.progress_rx_asm (s : State) : (s.progress).rx.asm = s.rx.asm := rfl
@[simp] theorem State.progress_rx_seq (s : State) : (s.progress).rx.seq = s.rx.seq := rfl
@[simp] theorem State.progress_rx_pktSize (s : State) : (s.progress).rx.pktSize = s.rx.pktSize := rfl
@[simp] theorem State.progress_rx_retry (s : State) : (s.progress).rx.retry = 0#8 := rfl
@[simp] theorem State.progress_rx_last (s : State) : (s.progress).rx.last = s.rx.now := rfl
@[simp] theorem State.progress_rx_fill (s : State) : (s.progress).rx.fill = s.rx.fill := rfl
@[simp] theorem State.progress_rx_need (s : State) : (s.progress).rx.need = s.rx.need := rfl
@[simp] theorem State.progress_rx_active (s : State) : (s.progress).rx.active = s.rx.active := rfl
@[simp] theorem State.progress_rx_reason (s : State) : (s.progress).rx.reason = s.rx.reason := rfl
@[simp] theorem State.progress_rx_now (s : State) : (s.progress).rx.now = s.rx.now := rfl
@[simp] theorem State.progress_tx (s : State) : (s.progress).tx = s.tx := rfl
@[simp] theorem State.progress_crcAcc (s : State) : (s.progress).crcAcc = s.crcAcc := rfl
@[simp] theorem State.progress_rxbuf (s : State) : (s.progress).rxbuf = s.rxbuf := rfl
@[simp] theorem State.progress_txbuf (s : State) : (s.progress).txbuf = s.txbuf := rfl
@[simp] theorem State.progress_env (s : State) : (s.progress).env = s.env := rfl
@[simp] theorem State.progress_result (s : State) : (s.progress).result = s.result := rfl

/-! ### asmReset -/

@[simp] theorem State.asmReset_par (s : State) : (s.asmReset).par = s.par := rfl
@[simp] theorem State.asmReset_cfg (s : State) : (s.asmReset).cfg = s.cfg := rfl
@[simp] theorem State.asmReset_inited (s : State) : (s.asmReset).inited = s.inited := rfl
@[simp] theorem State.asmReset_rx_state (s : State) : (s.asmReset).rx.state = s.rx.state := rfl
@[simp] theorem State.asmReset_rx_asm (s : State) : (s.asmReset).rx.asm = .awaitingSync := rfl
@[simp] theorem State.asmReset_rx_seq (s : State) : (s.asmReset).rx.seq = s.rx.seq := rfl
@[simp] theorem State.asmReset_rx_pktSize (s : State) : (s.asmReset).rx.pktSize = 0#11 := rfl
@[simp] theorem State.asmReset_rx_retry (s : State) : (s.asmReset).rx.retry = s.rx.retry := rfl
@[simp] theorem State.asmReset_rx_last (s : State) : (s.asmReset).rx.last = s.rx.last := rfl
@[simp] theorem State.asmReset_rx_fill (s : State) : (s.asmReset).rx.fill = 0#11 := rfl
@[simp] theorem State.asmReset_rx_need (s : State) : (s.asmReset).rx.need = 0#11 := rfl
@[simp] theorem State.asmReset_rx_active (s : State) : (s.asmReset).rx.active = s.rx.active := rfl
@[simp] theorem State.asmReset_rx_reason (s : State) : (s.asmReset).rx.reason = s.rx.reason := rfl
@[simp] theorem State.asmReset_rx_now (s : State) : (s.asmReset).rx.now = s.rx.now := rfl
@[simp] theorem State.asmReset_tx (s : State) : (s.asmReset).tx = s.tx := rfl
@[simp] theorem State.asmReset_crcAcc (s : State) : (s.asmReset).crcAcc = s.crcAcc := rfl
@[simp] theorem State.asmReset_rxbuf (s : State) : (s.asmReset).rxbuf = s.rxbuf.zeroBelow rxbufUsed := rfl
@[simp] theorem State.asmReset_txbuf (s : State) : (s.asmReset).txbuf = s.txbuf := rfl
@[simp] theorem State.asmReset_env (s : State) : (s.asmReset).env = s.env := rfl
@[simp] theorem State.asmReset_result (s : State) : (s.asmReset).result = s.result := rfl

/-! ### put -/

@[simp] theorem State.put_par (s : State) (b : Byte) : (s.put b).par = s.par := rfl
@[simp] theorem State.put_cfg (s : State) (b : Byte) : (s.put b).cfg = s.cfg := rfl
@[simp] theorem State.put_inited (s : State) (b : Byte) : (s.put b).inited = s.inited := rfl
@[simp] theorem State.put_rx (s : State) (b : Byte) : (s.put b).rx = s.rx := rfl
@[simp] theorem State.put_tx (s : State) (b : Byte) : (s.put b).tx = s.tx := rfl
@[simp] theorem State.put_crcAcc (s : State) (b : Byte) : (s.put b).crcAcc = s.crcAcc := rfl
@[simp] theorem State.put_rxbuf (s : State) (b : Byte) : (s.put b).rxbuf = s.rxbuf := rfl
@[simp] theorem State.put_txbuf (s : State) (b : Byte) : (s.put b).txbuf = s.txbuf := rfl
@[simp] theorem State.put_env (s : State) (b : Byte) : (s.put b).env = s.env.put b := rfl
@[simp] theorem State.put_result (s : State) (b : Byte) : (s.put b).result = s.result := rfl

/-! ### puts -/

@[simp] theorem State.puts_par (s : State) (bs : List Byte) : (s.puts bs).par = s.par := rfl
@[simp] theorem State.puts_cfg (s : State) (bs : List Byte) : (s.puts bs).cfg = s.cfg := rfl
@[simp] theorem State.puts_inited (s : State) (bs : List Byte) : (s.puts bs).inited = s.inited := rfl
@[simp] theorem State.puts_rx (s : State) (bs : List Byte) : (s.puts bs).rx = s.rx := rfl
@[simp] theorem State.puts_tx (s : State) (bs : List Byte) : (s.puts bs).tx = s.tx := rfl
@[simp] theorem State.puts_crcAcc (s : State) (bs : List Byte) : (s.puts bs).crcAcc = s.crcAcc := rfl
@[simp] theorem State.puts_rxbuf (s : State) (bs : List Byte) : (s.puts bs).rxbuf = s.rxbuf := rfl
@[simp] theorem State.puts_txbuf (s : State) (bs : List Byte) : (s.puts bs).txbuf = s.txbuf := rfl
@[simp] theorem State.puts_env (s : State) (bs : List Byte) : (s.puts bs).env = s.env.puts bs := rfl
@[simp] theorem State.puts_result (s : State) (bs : List Byte) : (s.puts bs).result = s.result := rfl

/-! ### latchTick -/

@[simp] theorem State.latchTick_par (s : State) : (s.latchTick).par = s.par := rfl
@[simp] theorem State.latchTick_cfg (s : State) : (s.latchTick).cfg = s.cfg := rfl
@[simp] theorem State.latchTick_inited (s : State) : (s.latchTick).inited = s.inited := rfl
@[simp] theorem State.latchTick_rx_state (s : State) : (s.latchTick).rx.state = s.rx.state := rfl
@[simp] theorem State.latchTick_rx_asm (s : State) : (s.latchTick).rx.asm = s.rx.asm := rfl
@[simp] theorem State.latchTick_rx_seq (s : State) : (s.latchTick).rx.seq = s.rx.seq := rfl
@[simp] theorem State.latchTick_rx_pktSize (s : State) : (s.latchTick).rx.pktSize = s.rx.pktSize := rfl
@[simp] theorem State.latchTick_rx_retry (s : State) : (s.latchTick).rx.retry = s.rx.retry := rfl
@[simp] theorem State.latchTick_rx_last (s : State) : (s.latchTick).rx.last = s.rx.last := rfl
@[simp] theorem State.latchTick_rx_fill (s : State) : (s.latchTick).rx.fill = s.rx.fill := rfl
@[simp] theorem State.latchTick_rx_need (s : State) : (s.latchTick).rx.need = s.rx.need := rfl
@[simp] theorem State.latchTick_rx_active (s : State) : (s.latchTick).rx.active = s.rx.active := rfl
@[simp] theorem State.latchTick_rx_reason (s : State) : (s.latchTick).rx.reason = s.rx.reason := rfl
@[simp] theorem State.latchTick_rx_now (s : State) : (s.latchTick).rx.now = s.env.readTick.1 := rfl
@[simp] theorem State.latchTick_tx (s : State) : (s.latchTick).tx = s.tx := rfl
@[simp] theorem State.latchTick_crcAcc (s : State) : (s.latchTick).crcAcc = s.crcAcc := rfl
@[simp] theorem State.latchTick_rxbuf (s : State) : (s.latchTick).rxbuf = s.rxbuf := rfl
@[simp] theorem State.latchTick_txbuf (s : State) : (s.latchTick).txbuf = s.txbuf := rfl
@[simp] theorem State.latchTick_env (s : State) : (s.latchTick).env = s.env.readTick.2 := rfl
@[simp] theorem State.latchTick_result (s : State) : (s.latchTick).result = s.result := rfl

/-! ### openFrame -/

@[simp] theorem State.openFrame_par (s : State) (n : Nat) : (s.openFrame n).par = s.par := rfl
@[simp] theorem State.openFrame_cfg (s : State) (n : Nat) : (s.openFrame n).cfg = s.cfg := rfl
@[simp] theorem State.openFrame_inited (s : State) (n : Nat) : (s.openFrame n).inited = s.inited := rfl
@[simp] theorem State.openFrame_rx_state (s : State) (n : Nat) : (s.openFrame n).rx.state = s.rx.state := rfl
@[simp] theorem State.openFrame_rx_asm (s : State) (n : Nat) : (s.openFrame n).rx.asm = .awaitingBody := rfl
@[simp] theorem State.openFrame_rx_seq (s : State) (n : Nat) : (s.openFrame n).rx.seq = s.rx.seq := rfl
@[simp] theorem State.openFrame_rx_pktSize (s : State) (n : Nat) : (s.openFrame n).rx.pktSize = BitVec.ofNat 11 n := rfl
@[simp] theorem State.openFrame_rx_retry (s : State) (n : Nat) : (s.openFrame n).rx.retry = s.rx.retry := rfl
@[simp] theorem State.openFrame_rx_last (s : State) (n : Nat) : (s.openFrame n).rx.last = s.rx.last := rfl
@[simp] theorem State.openFrame_rx_fill (s : State) (n : Nat) : (s.openFrame n).rx.fill = s.rx.fill := rfl
@[simp] theorem State.openFrame_rx_need (s : State) (n : Nat) : (s.openFrame n).rx.need = BitVec.ofNat 11 (3 + n + 2) := rfl
@[simp] theorem State.openFrame_rx_active (s : State) (n : Nat) : (s.openFrame n).rx.active = s.rx.active := rfl
@[simp] theorem State.openFrame_rx_reason (s : State) (n : Nat) : (s.openFrame n).rx.reason = s.rx.reason := rfl
@[simp] theorem State.openFrame_rx_now (s : State) (n : Nat) : (s.openFrame n).rx.now = s.rx.now := rfl
@[simp] theorem State.openFrame_tx (s : State) (n : Nat) : (s.openFrame n).tx = s.tx := rfl
@[simp] theorem State.openFrame_crcAcc (s : State) (n : Nat) : (s.openFrame n).crcAcc = s.crcAcc := rfl
@[simp] theorem State.openFrame_rxbuf (s : State) (n : Nat) : (s.openFrame n).rxbuf = s.rxbuf := rfl
@[simp] theorem State.openFrame_txbuf (s : State) (n : Nat) : (s.openFrame n).txbuf = s.txbuf := rfl
@[simp] theorem State.openFrame_env (s : State) (n : Nat) : (s.openFrame n).env = s.env := rfl
@[simp] theorem State.openFrame_result (s : State) (n : Nat) : (s.openFrame n).result = s.result := rfl

/-! ### emitFrame -/

@[simp] theorem State.emitFrame_par (s : State) (h q f : Byte) (n : Nat) (p : List Byte) : (s.emitFrame h q f n p).par = s.par := rfl
@[simp] theorem State.emitFrame_cfg (s : State) (h q f : Byte) (n : Nat) (p : List Byte) : (s.emitFrame h q f n p).cfg = s.cfg := rfl
@[simp] theorem State.emitFrame_inited (s : State) (h q f : Byte) (n : Nat) (p : List Byte) : (s.emitFrame h q f n p).inited = s.inited := rfl
@[simp] theorem State.emitFrame_rx (s : State) (h q f : Byte) (n : Nat) (p : List Byte) : (s.emitFrame h q f n p).rx = s.rx := rfl
@[simp] theorem State.emitFrame_tx (s : State) (h q f : Byte) (n : Nat) (p : List Byte) : (s.emitFrame h q f n p).tx = s.tx := rfl
@[simp] theorem State.emitFrame_crcAcc (s : State) (h q f : Byte) (n : Nat) (p : List Byte) : (s.emitFrame h q f n p).crcAcc = trailerCrc n f p := rfl
@[simp] theorem State.emitFrame_rxbuf (s : State) (h q f : Byte) (n : Nat) (p : List Byte) : (s.emitFrame h q f n p).rxbuf = s.rxbuf := rfl
@[simp] theorem State.emitFrame_txbuf (s : State) (h q f : Byte) (n : Nat) (p : List Byte) : (s.emitFrame h q f n p).txbuf = s.txbuf := rfl
@[simp] theorem State.emitFrame_env (s : State) (h q f : Byte) (n : Nat) (p : List Byte) : (s.emitFrame h q f n p).env = s.env.puts (encodedFrame h q f n p) := rfl
@[simp] theorem State.emitFrame_result (s : State) (h q f : Byte) (n : Nat) (p : List Byte) : (s.emitFrame h q f n p).result = s.result := rfl

/-! ### txEnd -/

@[simp] theorem State.txEnd_par (s : State) (ok : Bool) : (s.txEnd ok).par = s.par := rfl
@[simp] theorem State.txEnd_cfg (s : State) (ok : Bool) : (s.txEnd ok).cfg = s.cfg := rfl
@[simp] theorem State.txEnd_inited (s : State) (ok : Bool) : (s.txEnd ok).inited = s.inited := rfl
@[simp] theorem State.txEnd_rx (s : State) (ok : Bool) : (s.txEnd ok).rx = s.rx := rfl
@[simp] theorem State.txEnd_tx_phase (s : State) (ok : Bool) : (s.txEnd ok).tx.phase = .txIdle := rfl
@[simp] theorem State.txEnd_tx_seq (s : State) (ok : Bool) : (s.txEnd ok).tx.seq = s.tx.seq := rfl
@[simp] theorem State.txEnd_tx_off (s : State) (ok : Bool) : (s.txEnd ok).tx.off = s.tx.off := rfl
@[simp] theorem State.txEnd_tx_attempt (s : State) (ok : Bool) : (s.txEnd ok).tx.attempt = s.tx.attempt := rfl
@[simp] theorem State.txEnd_tx_t0 (s : State) (ok : Bool) : (s.txEnd ok).tx.t0 = s.tx.t0 := rfl
@[simp] theorem State.txEnd_tx_waiting (s : State) (ok : Bool) : (s.txEnd ok).tx.waiting = false := rfl
@[simp] theorem State.txEnd_tx_name (s : State) (ok : Bool) : (s.txEnd ok).tx.name = s.tx.name := rfl
@[simp] theorem State.txEnd_tx_size (s : State) (ok : Bool) : (s.txEnd ok).tx.size = s.tx.size := rfl
@[simp] theorem State.txEnd_tx_file (s : State) (ok : Bool) : (s.txEnd ok).tx.file = s.tx.file := rfl
@[simp] theorem State.txEnd_crcAcc (s : State) (ok : Bool) : (s.txEnd ok).crcAcc = s.crcAcc := rfl
@[simp] theorem State.txEnd_rxbuf (s : State) (ok : Bool) : (s.txEnd ok).rxbuf = s.rxbuf := rfl
@[simp] theorem State.txEnd_txbuf (s : State) (ok : Bool) : (s.txEnd ok).txbuf = s.txbuf := rfl
@[simp] theorem State.txEnd_env (s : State) (ok : Bool) : (s.txEnd ok).env = s.env := rfl
@[simp] theorem State.txEnd_result (s : State) (ok : Bool) : (s.txEnd ok).result = .send ok := rfl

/-! ### txRetry -/

@[simp] theorem State.txRetry_par (s : State) : (s.txRetry).par = s.par := rfl
@[simp] theorem State.txRetry_cfg (s : State) : (s.txRetry).cfg = s.cfg := rfl
@[simp] theorem State.txRetry_inited (s : State) : (s.txRetry).inited = s.inited := rfl
@[simp] theorem State.txRetry_rx (s : State) : (s.txRetry).rx = s.rx := rfl
@[simp] theorem State.txRetry_tx_phase (s : State) : (s.txRetry).tx.phase = s.tx.phase := rfl
@[simp] theorem State.txRetry_tx_seq (s : State) : (s.txRetry).tx.seq = s.tx.seq := rfl
@[simp] theorem State.txRetry_tx_off (s : State) : (s.txRetry).tx.off = s.tx.off := rfl
@[simp] theorem State.txRetry_tx_attempt (s : State) : (s.txRetry).tx.attempt = s.tx.attempt := rfl
@[simp] theorem State.txRetry_tx_t0 (s : State) : (s.txRetry).tx.t0 = s.tx.t0 := rfl
@[simp] theorem State.txRetry_tx_waiting (s : State) : (s.txRetry).tx.waiting = false := rfl
@[simp] theorem State.txRetry_tx_name (s : State) : (s.txRetry).tx.name = s.tx.name := rfl
@[simp] theorem State.txRetry_tx_size (s : State) : (s.txRetry).tx.size = s.tx.size := rfl
@[simp] theorem State.txRetry_tx_file (s : State) : (s.txRetry).tx.file = s.tx.file := rfl
@[simp] theorem State.txRetry_crcAcc (s : State) : (s.txRetry).crcAcc = s.crcAcc := rfl
@[simp] theorem State.txRetry_rxbuf (s : State) : (s.txRetry).rxbuf = s.rxbuf := rfl
@[simp] theorem State.txRetry_txbuf (s : State) : (s.txRetry).txbuf = s.txbuf := rfl
@[simp] theorem State.txRetry_env (s : State) : (s.txRetry).env = s.env := rfl
@[simp] theorem State.txRetry_result (s : State) : (s.txRetry).result = s.result := rfl

/-! ### txEnter -/

@[simp] theorem State.txEnter_par (s : State) (p : TxPhase) : (s.txEnter p).par = s.par := rfl
@[simp] theorem State.txEnter_cfg (s : State) (p : TxPhase) : (s.txEnter p).cfg = s.cfg := rfl
@[simp] theorem State.txEnter_inited (s : State) (p : TxPhase) : (s.txEnter p).inited = s.inited := rfl
@[simp] theorem State.txEnter_rx (s : State) (p : TxPhase) : (s.txEnter p).rx = s.rx := rfl
@[simp] theorem State.txEnter_tx_phase (s : State) (p : TxPhase) : (s.txEnter p).tx.phase = p := rfl
@[simp] theorem State.txEnter_tx_seq (s : State) (p : TxPhase) : (s.txEnter p).tx.seq = s.tx.seq := rfl
@[simp] theorem State.txEnter_tx_off (s : State) (p : TxPhase) : (s.txEnter p).tx.off = s.tx.off := rfl
@[simp] theorem State.txEnter_tx_attempt (s : State) (p : TxPhase) : (s.txEnter p).tx.attempt = 0#8 := rfl
@[simp] theorem State.txEnter_tx_t0 (s : State) (p : TxPhase) : (s.txEnter p).tx.t0 = s.tx.t0 := rfl
@[simp] theorem State.txEnter_tx_waiting (s : State) (p : TxPhase) : (s.txEnter p).tx.waiting = false := rfl
@[simp] theorem State.txEnter_tx_name (s : State) (p : TxPhase) : (s.txEnter p).tx.name = s.tx.name := rfl
@[simp] theorem State.txEnter_tx_size (s : State) (p : TxPhase) : (s.txEnter p).tx.size = s.tx.size := rfl
@[simp] theorem State.txEnter_tx_file (s : State) (p : TxPhase) : (s.txEnter p).tx.file = s.tx.file := rfl
@[simp] theorem State.txEnter_crcAcc (s : State) (p : TxPhase) : (s.txEnter p).crcAcc = s.crcAcc := rfl
@[simp] theorem State.txEnter_rxbuf (s : State) (p : TxPhase) : (s.txEnter p).rxbuf = s.rxbuf := rfl
@[simp] theorem State.txEnter_txbuf (s : State) (p : TxPhase) : (s.txEnter p).txbuf = s.txbuf := rfl
@[simp] theorem State.txEnter_env (s : State) (p : TxPhase) : (s.txEnter p).env = s.env := rfl
@[simp] theorem State.txEnter_result (s : State) (p : TxPhase) : (s.txEnter p).result = s.result := rfl

/-! ### txArm -/

@[simp] theorem State.txArm_par (s : State) : (s.txArm).par = s.par := rfl
@[simp] theorem State.txArm_cfg (s : State) : (s.txArm).cfg = s.cfg := rfl
@[simp] theorem State.txArm_inited (s : State) : (s.txArm).inited = s.inited := rfl
@[simp] theorem State.txArm_rx (s : State) : (s.txArm).rx = s.rx := rfl
@[simp] theorem State.txArm_tx_phase (s : State) : (s.txArm).tx.phase = s.tx.phase := rfl
@[simp] theorem State.txArm_tx_seq (s : State) : (s.txArm).tx.seq = s.tx.seq := rfl
@[simp] theorem State.txArm_tx_off (s : State) : (s.txArm).tx.off = s.tx.off := rfl
@[simp] theorem State.txArm_tx_attempt (s : State) : (s.txArm).tx.attempt = s.tx.attempt := rfl
@[simp] theorem State.txArm_tx_t0 (s : State) : (s.txArm).tx.t0 = s.env.readTick.1 := rfl
@[simp] theorem State.txArm_tx_waiting (s : State) : (s.txArm).tx.waiting = true := rfl
@[simp] theorem State.txArm_tx_name (s : State) : (s.txArm).tx.name = s.tx.name := rfl
@[simp] theorem State.txArm_tx_size (s : State) : (s.txArm).tx.size = s.tx.size := rfl
@[simp] theorem State.txArm_tx_file (s : State) : (s.txArm).tx.file = s.tx.file := rfl
@[simp] theorem State.txArm_crcAcc (s : State) : (s.txArm).crcAcc = s.crcAcc := rfl
@[simp] theorem State.txArm_rxbuf (s : State) : (s.txArm).rxbuf = s.rxbuf := rfl
@[simp] theorem State.txArm_txbuf (s : State) : (s.txArm).txbuf = s.txbuf := rfl
@[simp] theorem State.txArm_env (s : State) : (s.txArm).env = s.env.readTick.2 := rfl
@[simp] theorem State.txArm_result (s : State) : (s.txArm).result = s.result := rfl

/-! ### Env.put -/

@[simp] theorem Env.put_linkIn (e : Env) (b : Byte) : (e.put b).linkIn = e.linkIn := rfl
@[simp] theorem Env.put_linkOut (e : Env) (b : Byte) : (e.put b).linkOut = e.linkOut ++ [b] := rfl
@[simp] theorem Env.put_tick (e : Env) (b : Byte) : (e.put b).tick = e.tick := rfl
@[simp] theorem Env.put_requests (e : Env) (b : Byte) : (e.put b).requests = e.requests := rfl
@[simp] theorem Env.put_arrivals (e : Env) (b : Byte) : (e.put b).arrivals = e.arrivals := rfl
@[simp] theorem Env.put_advances (e : Env) (b : Byte) : (e.put b).advances = e.advances := rfl
@[simp] theorem Env.put_grants (e : Env) (b : Byte) : (e.put b).grants = e.grants := rfl
@[simp] theorem Env.put_answers (e : Env) (b : Byte) : (e.put b).answers = e.answers := rfl
@[simp] theorem Env.put_draws (e : Env) (b : Byte) : (e.put b).draws = e.draws := rfl
@[simp] theorem Env.put_trace (e : Env) (b : Byte) : (e.put b).trace = e.trace ++ [.put b] := rfl

/-! ### Env.puts -/

@[simp] theorem Env.puts_linkIn (e : Env) (bs : List Byte) : (e.puts bs).linkIn = e.linkIn := rfl
@[simp] theorem Env.puts_linkOut (e : Env) (bs : List Byte) : (e.puts bs).linkOut = e.linkOut ++ bs := rfl
@[simp] theorem Env.puts_tick (e : Env) (bs : List Byte) : (e.puts bs).tick = e.tick := rfl
@[simp] theorem Env.puts_requests (e : Env) (bs : List Byte) : (e.puts bs).requests = e.requests := rfl
@[simp] theorem Env.puts_arrivals (e : Env) (bs : List Byte) : (e.puts bs).arrivals = e.arrivals := rfl
@[simp] theorem Env.puts_advances (e : Env) (bs : List Byte) : (e.puts bs).advances = e.advances := rfl
@[simp] theorem Env.puts_grants (e : Env) (bs : List Byte) : (e.puts bs).grants = e.grants := rfl
@[simp] theorem Env.puts_answers (e : Env) (bs : List Byte) : (e.puts bs).answers = e.answers := rfl
@[simp] theorem Env.puts_draws (e : Env) (bs : List Byte) : (e.puts bs).draws = e.draws := rfl
@[simp] theorem Env.puts_trace (e : Env) (bs : List Byte) : (e.puts bs).trace = e.trace ++ bs.map .put := rfl

/-! ### Env.flush -/

@[simp] theorem Env.flush_linkIn (e : Env) : (e.flush).linkIn = e.linkIn := rfl
@[simp] theorem Env.flush_linkOut (e : Env) : (e.flush).linkOut = [] := rfl
@[simp] theorem Env.flush_tick (e : Env) : (e.flush).tick = e.tick := rfl
@[simp] theorem Env.flush_requests (e : Env) : (e.flush).requests = e.requests := rfl
@[simp] theorem Env.flush_arrivals (e : Env) : (e.flush).arrivals = e.arrivals := rfl
@[simp] theorem Env.flush_advances (e : Env) : (e.flush).advances = e.advances := rfl
@[simp] theorem Env.flush_grants (e : Env) : (e.flush).grants = e.grants := rfl
@[simp] theorem Env.flush_answers (e : Env) : (e.flush).answers = e.answers := rfl
@[simp] theorem Env.flush_draws (e : Env) : (e.flush).draws = e.draws := rfl
@[simp] theorem Env.flush_trace (e : Env) : (e.flush).trace = e.trace ++ [.flush] := rfl

/-! ### Env.record -/

@[simp] theorem Env.record_linkIn (e : Env) (p : PortCall) : (e.record p).linkIn = e.linkIn := rfl
@[simp] theorem Env.record_linkOut (e : Env) (p : PortCall) : (e.record p).linkOut = e.linkOut := rfl
@[simp] theorem Env.record_tick (e : Env) (p : PortCall) : (e.record p).tick = e.tick := rfl
@[simp] theorem Env.record_requests (e : Env) (p : PortCall) : (e.record p).requests = e.requests := rfl
@[simp] theorem Env.record_arrivals (e : Env) (p : PortCall) : (e.record p).arrivals = e.arrivals := rfl
@[simp] theorem Env.record_advances (e : Env) (p : PortCall) : (e.record p).advances = e.advances := rfl
@[simp] theorem Env.record_grants (e : Env) (p : PortCall) : (e.record p).grants = e.grants := rfl
@[simp] theorem Env.record_answers (e : Env) (p : PortCall) : (e.record p).answers = e.answers := rfl
@[simp] theorem Env.record_draws (e : Env) (p : PortCall) : (e.record p).draws = e.draws := rfl
@[simp] theorem Env.record_trace (e : Env) (p : PortCall) : (e.record p).trace = e.trace ++ [p] := rfl

/-! ### Env.onFinish -/

@[simp] theorem Env.onFinish_linkIn (e : Env) (r : Reason) : (e.onFinish r).linkIn = e.linkIn := rfl
@[simp] theorem Env.onFinish_linkOut (e : Env) (r : Reason) : (e.onFinish r).linkOut = e.linkOut := rfl
@[simp] theorem Env.onFinish_tick (e : Env) (r : Reason) : (e.onFinish r).tick = e.tick := rfl
@[simp] theorem Env.onFinish_requests (e : Env) (r : Reason) : (e.onFinish r).requests = e.requests := rfl
@[simp] theorem Env.onFinish_arrivals (e : Env) (r : Reason) : (e.onFinish r).arrivals = e.arrivals := rfl
@[simp] theorem Env.onFinish_advances (e : Env) (r : Reason) : (e.onFinish r).advances = e.advances := rfl
@[simp] theorem Env.onFinish_grants (e : Env) (r : Reason) : (e.onFinish r).grants = e.grants := rfl
@[simp] theorem Env.onFinish_answers (e : Env) (r : Reason) : (e.onFinish r).answers = e.answers := rfl
@[simp] theorem Env.onFinish_draws (e : Env) (r : Reason) : (e.onFinish r).draws = e.draws := rfl
@[simp] theorem Env.onFinish_trace (e : Env) (r : Reason) : (e.onFinish r).trace = e.trace ++ [.onFinish r] := rfl

/-! ### Env.delayMs -/

@[simp] theorem Env.delayMs_linkIn (e : Env) (n : Nat) : (e.delayMs n).linkIn = e.linkIn := rfl
@[simp] theorem Env.delayMs_linkOut (e : Env) (n : Nat) : (e.delayMs n).linkOut = e.linkOut := rfl
@[simp] theorem Env.delayMs_tick (e : Env) (n : Nat) : (e.delayMs n).tick = e.tick := rfl
@[simp] theorem Env.delayMs_requests (e : Env) (n : Nat) : (e.delayMs n).requests = e.requests := rfl
@[simp] theorem Env.delayMs_arrivals (e : Env) (n : Nat) : (e.delayMs n).arrivals = e.arrivals := rfl
@[simp] theorem Env.delayMs_advances (e : Env) (n : Nat) : (e.delayMs n).advances = e.advances := rfl
@[simp] theorem Env.delayMs_grants (e : Env) (n : Nat) : (e.delayMs n).grants = e.grants := rfl
@[simp] theorem Env.delayMs_answers (e : Env) (n : Nat) : (e.delayMs n).answers = e.answers := rfl
@[simp] theorem Env.delayMs_draws (e : Env) (n : Nat) : (e.delayMs n).draws = e.draws := rfl
@[simp] theorem Env.delayMs_trace (e : Env) (n : Nat) : (e.delayMs n).trace = e.trace ++ [.delayMs n] := rfl

end Sys2Proof.Machine
end

