-- ==== Sys2Proof/Laws/Codec.lean ====
section
/-! SUPPORT. The codec's functions on the buffers that occur (41_codec.md). -/

namespace Sys2Proof.Machine

/-- The header bytes that select a payload size (R142). -/
theorem payloadSize_cases (b : Byte) :
    (b = 0x01#8 ∧ payloadSize b = some 128) ∨ (b = 0x02#8 ∧ payloadSize b = some 1024) ∨
    (b ≠ 0x01#8 ∧ b ≠ 0x02#8 ∧ payloadSize b = none) := by
  unfold payloadSize symSOH symSTX
  by_cases h : b = 0x01#8
  · simp [h]
  · by_cases h' : b = 0x02#8 <;> simp [h, h']

/-- The control bytes of check 1 (R141). -/
theorem isControlByte_iff (b : Byte) :
    isControlByte b = true ↔ b = 0x06#8 ∨ b = 0x04#8 ∨ b = 0x15#8 ∨ b = 0x18#8 := by
  simp only [isControlByte, symACK, symEOT, symNAK, symCAN, Bool.or_eq_true, or_assoc]
  exact ⟨fun h => by revert h; revert b; decide, fun h => by revert h; revert b; decide⟩

/-- A header byte is no control byte. -/
theorem isControlByte_of_payloadSize {b : Byte} {n : Nat} (h : payloadSize b = some n) : isControlByte b = false := by
  rcases payloadSize_cases b with ⟨rfl, _⟩ | ⟨rfl, _⟩ | ⟨_, _, h'⟩
  · decide
  · decide
  · simp [h'] at h

@[simp] theorem padTo_length (n : Nat) (fill : Byte) (payload : List Byte) : (padTo n fill payload).length = n := by
  simp [padTo]; omega

/-- With no more than `n` bytes nothing is cut off (R150). -/
theorem padTo_of_le {n : Nat} {payload : List Byte} (fill : Byte) (h : payload.length ≤ n) :
    padTo n fill payload = payload ++ List.replicate (n - payload.length) fill := by
  simp [padTo, List.take_of_length_le h]

@[simp] theorem frameBytes_length (h seq nseq : Byte) (payload : List Byte) (hi lo : Byte) :
    (frameBytes h seq nseq payload hi lo).length = payload.length + 5 := by
  simp [frameBytes]

@[simp] theorem encodedFrame_length (h seq fill : Byte) (n : Nat) (payload : List Byte) :
    (encodedFrame h seq fill n payload).length = n + 5 := by
  simp [encodedFrame]

/-! ### VALIDATE on the candidates of the assembler -/

/-- Check 1 (R141). -/
theorem validate_control {b : Byte} (h : isControlByte b = true) (rest : List Byte) (len : Nat) (exp : Byte) (acc : Half) :
    validate (b :: rest) (len + 1) exp acc = (.control b, acc) := by
  simp [validate, h]

/-- Check 2 (R142). -/
theorem validate_sync {b : Byte} (h : isControlByte b = false) (h' : payloadSize b = none) (rest : List Byte) (len : Nat)
    (exp : Byte) (acc : Half) : validate (b :: rest) (len + 1) exp acc = (.invalid .sync, acc) := by
  simp [validate, h, h']

/-- Checks 4 to 6, on a frame of the right length (R144 to R146). -/
theorem validate_frame {h : Byte} {payload : List Byte} (hh : payloadSize h = some payload.length) (seq nseq hi lo exp : Byte)
    (acc : Half) :
    validate (frameBytes h seq nseq payload hi lo) (payload.length + 5) exp acc =
      if seq ^^^ nseq ≠ 0xFF#8 then (.invalid .complement, acc)
      else if seq ≠ exp then (.invalid .sequence, acc)
      else if crc16 0#16 payload ≠ hi ++ lo then (.invalid .crc, crc16 0#16 payload)
      else (.valid, crc16 0#16 payload) := by
  have hc := isControlByte_of_payloadSize hh
  have h3 : (frameBytes h seq nseq payload hi lo).getD (3 + payload.length) 0#8 = hi := by
    simp [frameBytes, show 3 + payload.length = payload.length + 1 + 1 + 1 by omega]
  have h4 : (frameBytes h seq nseq payload hi lo).getD (4 + payload.length) 0#8 = lo := by
    simp [frameBytes, show 4 + payload.length = (payload.length + 1) + 1 + 1 + 1 by omega]
  have hp : ((frameBytes h seq nseq payload hi lo).drop 3).take payload.length = payload := by
    simp [frameBytes]
  have h0 : (frameBytes h seq nseq payload hi lo).getD 0 0#8 = h := rfl
  have h1 : (frameBytes h seq nseq payload hi lo).getD 1 0#8 = seq := rfl
  have h2 : (frameBytes h seq nseq payload hi lo).getD 2 0#8 = nseq := rfl
  unfold validate
  simp only [h0, h1, h2, h3, h4, hp, hc, hh, crcOfBytes]
  simp [show ¬ (payload.length + 5 ≠ 3 + payload.length + 2) by omega]

/-! ### VALIDATE on any operands -/

/-- The eight outcomes of VALIDATE with what decides each: the first failing check (R140, 60_exceptions.md R271). CRC_ACC is written
only where check 6 is made. -/
theorem validate_cases (buf : List Byte) (len : Nat) (exp : Byte) (acc : Half) :
    (len = 0 ∧ validate buf len exp acc = (.invalid .empty, acc)) ∨
    (1 ≤ len ∧ isControlByte (buf.getD 0 0#8) = true ∧
      validate buf len exp acc = (.control (buf.getD 0 0#8), acc)) ∨
    (1 ≤ len ∧ isControlByte (buf.getD 0 0#8) = false ∧ payloadSize (buf.getD 0 0#8) = none ∧
      validate buf len exp acc = (.invalid .sync, acc)) ∨
    ∃ n, 1 ≤ len ∧ payloadSize (buf.getD 0 0#8) = some n ∧
      ((len ≠ n + 5 ∧ validate buf len exp acc = (.invalid .length, acc)) ∨
       (len = n + 5 ∧ buf.getD 1 0#8 ^^^ buf.getD 2 0#8 ≠ 0xFF#8 ∧
          validate buf len exp acc = (.invalid .complement, acc)) ∨
       (len = n + 5 ∧ buf.getD 1 0#8 ^^^ buf.getD 2 0#8 = 0xFF#8 ∧ buf.getD 1 0#8 ≠ exp ∧
          validate buf len exp acc = (.invalid .sequence, acc)) ∨
       (len = n + 5 ∧ buf.getD 1 0#8 ^^^ buf.getD 2 0#8 = 0xFF#8 ∧ buf.getD 1 0#8 = exp ∧
          crc16 0#16 ((buf.drop 3).take n) ≠ buf.getD (3 + n) 0#8 ++ buf.getD (4 + n) 0#8 ∧
          validate buf len exp acc = (.invalid .crc, crc16 0#16 ((buf.drop 3).take n))) ∨
       (len = n + 5 ∧ buf.getD 1 0#8 ^^^ buf.getD 2 0#8 = 0xFF#8 ∧ buf.getD 1 0#8 = exp ∧
          crc16 0#16 ((buf.drop 3).take n) = buf.getD (3 + n) 0#8 ++ buf.getD (4 + n) 0#8 ∧
          validate buf len exp acc = (.valid, crc16 0#16 ((buf.drop 3).take n)))) := by
  unfold validate
  dsimp only
  by_cases h0 : len = 0
  · exact .inl ⟨h0, if_pos h0⟩
  rw [if_neg h0]
  cases hc : isControlByte (buf.getD 0 0#8) with
  | true => exact .inr (.inl ⟨by omega, rfl, rfl⟩)
  | false =>
    cases hp : payloadSize (buf.getD 0 0#8) with
    | none => exact .inr (.inr (.inl ⟨by omega, rfl, rfl, rfl⟩))
    | some n =>
      refine .inr (.inr (.inr ⟨n, by omega, rfl, ?_⟩))
      dsimp only
      rw [if_neg Bool.false_ne_true]
      by_cases hl : len = n + 5
      · rw [if_neg (show ¬ len ≠ 3 + n + 2 by omega)]
        by_cases hx : buf.getD 1 0#8 ^^^ buf.getD 2 0#8 = 0xFF#8
        · rw [if_neg (not_not.2 hx)]
          by_cases hs : buf.getD 1 0#8 = exp
          · rw [if_neg (not_not.2 hs)]
            by_cases hcrc : crc16 0#16 ((buf.drop 3).take n) = buf.getD (3 + n) 0#8 ++ buf.getD (4 + n) 0#8
            · exact .inr (.inr (.inr (.inr ⟨hl, hx, hs, hcrc, if_neg (not_not.2 hcrc)⟩)))
            · exact .inr (.inr (.inr (.inl ⟨hl, hx, hs, hcrc, if_pos hcrc⟩)))
          · exact .inr (.inr (.inl ⟨hl, hx, hs, if_pos hs⟩))
        · exact .inr (.inl ⟨hl, hx, if_pos hx⟩)
      · exact .inl ⟨hl, if_pos (show len ≠ 3 + n + 2 by omega)⟩

end Sys2Proof.Machine
end

