-- ==== Sys2Proof/Laws/Env.lean ====
section
/-! SUPPORT. What each port primitive can do (10_state.md R40 to R49), said once. -/

namespace Sys2Proof.Machine

/-- Arrival appends to the pending input and touches the arrival script and the draw counter only. -/
theorem Env.arrive_spec (e : Env) :
    ∃ bs rest k, e.arrive = { e with linkIn := e.linkIn ++ bs, arrivals := rest, draws := k } := by
  unfold Env.arrive
  split
  · exact ⟨_, _, e.draws, rfl⟩
  · rename_i h
    exact ⟨_, [], _, by rw [← h]⟩

/-- Arrival with a scripted batch. -/
theorem Env.arrive_scripted (e : Env) {bs : List Byte} {rest : List (List Byte)} (h : e.arrivals = bs :: rest) :
    e.arrive = { e with linkIn := e.linkIn ++ bs, arrivals := rest } := by
  unfold Env.arrive; rw [h]

@[simp] theorem Env.arrive_linkOut (e : Env) : e.arrive.linkOut = e.linkOut := by
  unfold Env.arrive; split <;> rfl
@[simp] theorem Env.arrive_tick (e : Env) : e.arrive.tick = e.tick := by unfold Env.arrive; split <;> rfl
@[simp] theorem Env.arrive_requests (e : Env) : e.arrive.requests = e.requests := by
  unfold Env.arrive; split <;> rfl
@[simp] theorem Env.arrive_advances (e : Env) : e.arrive.advances = e.advances := by
  unfold Env.arrive; split <;> rfl
@[simp] theorem Env.arrive_grants (e : Env) : e.arrive.grants = e.grants := by unfold Env.arrive; split <;> rfl
@[simp] theorem Env.arrive_answers (e : Env) : e.arrive.answers = e.answers := by unfold Env.arrive; split <;> rfl
@[simp] theorem Env.arrive_trace (e : Env) : e.arrive.trace = e.trace := by unfold Env.arrive; split <;> rfl

/-! ### LinkClearIn, LinkGet, LinkRecv -/

@[simp] theorem Env.clearIn_linkIn (e : Env) : e.clearIn.linkIn = [] := rfl
@[simp] theorem Env.clearIn_linkOut (e : Env) : e.clearIn.linkOut = e.linkOut := by simp [Env.clearIn]
@[simp] theorem Env.clearIn_tick (e : Env) : e.clearIn.tick = e.tick := by simp [Env.clearIn]
@[simp] theorem Env.clearIn_requests (e : Env) : e.clearIn.requests = e.requests := by simp [Env.clearIn]
@[simp] theorem Env.clearIn_advances (e : Env) : e.clearIn.advances = e.advances := by simp [Env.clearIn]
@[simp] theorem Env.clearIn_grants (e : Env) : e.clearIn.grants = e.grants := by simp [Env.clearIn]
@[simp] theorem Env.clearIn_answers (e : Env) : e.clearIn.answers = e.answers := by simp [Env.clearIn]
@[simp] theorem Env.clearIn_trace (e : Env) : e.clearIn.trace = e.trace ++ [.clearIn] := rfl

/-- LinkGet: EOF on an empty input, else the head is removed (R41). -/
theorem Env.get_cases (e : Env) (t : Word) :
    (e.arrive.linkIn = [] ∧ e.get t = (none, { e.arrive with trace := e.trace ++ [.get t none] })) ∨
    (∃ b rest, e.arrive.linkIn = b :: rest ∧
      e.get t = (some b, { e.arrive with linkIn := rest, trace := e.trace ++ [.get t (some b)] })) := by
  unfold Env.get
  split
  · exact .inl ⟨‹_›, rfl⟩
  · exact .inr ⟨_, _, ‹_›, rfl⟩

@[simp] theorem Env.get_linkOut (e : Env) (t : Word) : (e.get t).2.linkOut = e.linkOut := by
  rcases e.get_cases t with ⟨_, h⟩ | ⟨_, _, _, h⟩ <;> simp [h]
@[simp] theorem Env.get_tick (e : Env) (t : Word) : (e.get t).2.tick = e.tick := by
  rcases e.get_cases t with ⟨_, h⟩ | ⟨_, _, _, h⟩ <;> simp [h]
@[simp] theorem Env.get_requests (e : Env) (t : Word) : (e.get t).2.requests = e.requests := by
  rcases e.get_cases t with ⟨_, h⟩ | ⟨_, _, _, h⟩ <;> simp [h]
@[simp] theorem Env.get_advances (e : Env) (t : Word) : (e.get t).2.advances = e.advances := by
  rcases e.get_cases t with ⟨_, h⟩ | ⟨_, _, _, h⟩ <;> simp [h]
@[simp] theorem Env.get_grants (e : Env) (t : Word) : (e.get t).2.grants = e.grants := by
  rcases e.get_cases t with ⟨_, h⟩ | ⟨_, _, _, h⟩ <;> simp [h]
@[simp] theorem Env.get_answers (e : Env) (t : Word) : (e.get t).2.answers = e.answers := by
  rcases e.get_cases t with ⟨_, h⟩ | ⟨_, _, _, h⟩ <;> simp [h]
/-- The record shows the answer. -/
@[simp] theorem Env.get_trace (e : Env) (t : Word) : (e.get t).2.trace = e.trace ++ [.get t (e.get t).1] := by
  rcases e.get_cases t with ⟨_, h⟩ | ⟨_, _, _, h⟩ <;> simp [h]

@[simp] theorem Env.grant_linkOut (e : Env) : e.grant.2.linkOut = e.linkOut := by unfold Env.grant; split <;> rfl
@[simp] theorem Env.grant_tick (e : Env) : e.grant.2.tick = e.tick := by unfold Env.grant; split <;> rfl
@[simp] theorem Env.grant_requests (e : Env) : e.grant.2.requests = e.requests := by unfold Env.grant; split <;> rfl
@[simp] theorem Env.grant_advances (e : Env) : e.grant.2.advances = e.advances := by unfold Env.grant; split <;> rfl
@[simp] theorem Env.grant_arrivals (e : Env) : e.grant.2.arrivals = e.arrivals := by unfold Env.grant; split <;> rfl
@[simp] theorem Env.grant_answers (e : Env) : e.grant.2.answers = e.answers := by unfold Env.grant; split <;> rfl

/-- LinkRecv never answers more than it was asked for (R42). -/
theorem Env.recv_length (e : Env) (max : Nat) : (e.recv max).1.length ≤ max := by
  simp only [Env.recv, List.length_take]; omega

/-- LinkRecv splits the pending input: nothing is lost or reordered (R42, 20_memory.md R72). -/
theorem Env.recv_split (e : Env) (max : Nat) : (e.recv max).1 ++ (e.recv max).2.linkIn = e.arrive.linkIn := by
  simp [Env.recv]

@[simp] theorem Env.recv_linkOut (e : Env) (max : Nat) : (e.recv max).2.linkOut = e.linkOut := by simp [Env.recv]
@[simp] theorem Env.recv_tick (e : Env) (max : Nat) : (e.recv max).2.tick = e.tick := by simp [Env.recv]
@[simp] theorem Env.recv_requests (e : Env) (max : Nat) : (e.recv max).2.requests = e.requests := by simp [Env.recv]
@[simp] theorem Env.recv_advances (e : Env) (max : Nat) : (e.recv max).2.advances = e.advances := by simp [Env.recv]
@[simp] theorem Env.recv_answers (e : Env) (max : Nat) : (e.recv max).2.answers = e.answers := by simp [Env.recv]
@[simp] theorem Env.recv_trace (e : Env) (max : Nat) : (e.recv max).2.trace = e.trace ++ [.recv max (e.recv max).1] := rfl

/-- LinkRecv with a scripted arrival and grant. -/
theorem Env.recv_scripted (e : Env) (max : Nat) {bs : List Byte} {rest : List (List Byte)} {g : Nat} {gs : List Nat}
    (h : e.arrivals = bs :: rest) (hg : e.grants = g :: gs) :
    e.recv max = ((e.linkIn ++ bs).take (min g max),
      { e with linkIn := (e.linkIn ++ bs).drop (min g max), arrivals := rest, grants := gs,
               trace := e.trace ++ [.recv max ((e.linkIn ++ bs).take (min g max))] }) := by
  have ha := e.arrive_scripted h
  simp [Env.recv, ha, Env.grant, hg]

/-! ### Tick -/

@[simp] theorem Env.advance_linkOut (e : Env) : e.advance.2.linkOut = e.linkOut := by unfold Env.advance; split <;> rfl
@[simp] theorem Env.advance_linkIn (e : Env) : e.advance.2.linkIn = e.linkIn := by unfold Env.advance; split <;> rfl
@[simp] theorem Env.advance_requests (e : Env) : e.advance.2.requests = e.requests := by
  unfold Env.advance; split <;> rfl
@[simp] theorem Env.advance_arrivals (e : Env) : e.advance.2.arrivals = e.arrivals := by
  unfold Env.advance; split <;> rfl
@[simp] theorem Env.advance_grants (e : Env) : e.advance.2.grants = e.grants := by unfold Env.advance; split <;> rfl
@[simp] theorem Env.advance_answers (e : Env) : e.advance.2.answers = e.answers := by unfold Env.advance; split <;> rfl

@[simp] theorem Env.readTick_linkIn (e : Env) : e.readTick.2.linkIn = e.linkIn := by simp [Env.readTick]
@[simp] theorem Env.readTick_linkOut (e : Env) : e.readTick.2.linkOut = e.linkOut := by simp [Env.readTick]
@[simp] theorem Env.readTick_requests (e : Env) : e.readTick.2.requests = e.requests := by simp [Env.readTick]
@[simp] theorem Env.readTick_arrivals (e : Env) : e.readTick.2.arrivals = e.arrivals := by simp [Env.readTick]
@[simp] theorem Env.readTick_grants (e : Env) : e.readTick.2.grants = e.grants := by simp [Env.readTick]
@[simp] theorem Env.readTick_answers (e : Env) : e.readTick.2.answers = e.answers := by simp [Env.readTick]
/-- The counter's new value is the one answered. -/
@[simp] theorem Env.readTick_tick (e : Env) : e.readTick.2.tick = e.readTick.1 := rfl
@[simp] theorem Env.readTick_trace (e : Env) : e.readTick.2.trace = e.trace ++ [.tick e.readTick.1] := rfl

/-- The value answered depends on the counter, the script and the draw counter only. -/
theorem Env.readTick_congr {e e' : Env} (ht : e.tick = e'.tick) (ha : e.advances = e'.advances)
    (hd : e.draws = e'.draws) : e.readTick.1 = e'.readTick.1 := by
  simp only [Env.readTick, Env.advance, ht, ha, hd]
  split <;> rfl

@[simp] theorem Env.readTick_put (e : Env) (b : Byte) : (e.put b).readTick.1 = e.readTick.1 :=
  Env.readTick_congr rfl rfl rfl
@[simp] theorem Env.readTick_puts (e : Env) (bs : List Byte) : (e.puts bs).readTick.1 = e.readTick.1 :=
  Env.readTick_congr rfl rfl rfl
@[simp] theorem Env.readTick_flush (e : Env) : e.flush.readTick.1 = e.readTick.1 :=
  Env.readTick_congr rfl rfl rfl

/-- Two successive values differ by less than 2^31 (R45). -/
theorem Env.readTick_advance (e : Env) : (e.readTick.1 - e.tick).toNat < 2147483648 := by
  have : e.readTick.1 - e.tick = e.advance.1.setWidth 32 := by
    simp only [Env.readTick]; exact add_sub_cancel_left _ _
  rw [this, BitVec.toNat_setWidth_of_le (by decide)]
  exact e.advance.1.isLt

/-- Tick with a scripted advance. -/
theorem Env.readTick_scripted (e : Env) {d : BitVec 31} {rest : List (BitVec 31)} (h : e.advances = d :: rest) :
    e.readTick = (e.tick + d.setWidth 32,
      { e with tick := e.tick + d.setWidth 32, advances := rest, trace := e.trace ++ [.tick (e.tick + d.setWidth 32)] }) := by
  simp [Env.readTick, Env.advance, h]

/-! ### The consumer -/

@[simp] theorem Env.answer_linkIn (e : Env) : e.answer.2.linkIn = e.linkIn := by unfold Env.answer; split <;> rfl
@[simp] theorem Env.answer_linkOut (e : Env) : e.answer.2.linkOut = e.linkOut := by unfold Env.answer; split <;> rfl
@[simp] theorem Env.answer_tick (e : Env) : e.answer.2.tick = e.tick := by unfold Env.answer; split <;> rfl
@[simp] theorem Env.answer_requests (e : Env) : e.answer.2.requests = e.requests := by unfold Env.answer; split <;> rfl
@[simp] theorem Env.answer_arrivals (e : Env) : e.answer.2.arrivals = e.arrivals := by unfold Env.answer; split <;> rfl
@[simp] theorem Env.answer_advances (e : Env) : e.answer.2.advances = e.advances := by unfold Env.answer; split <;> rfl
@[simp] theorem Env.answer_grants (e : Env) : e.answer.2.grants = e.grants := by unfold Env.answer; split <;> rfl
@[simp] theorem Env.answer_trace (e : Env) : e.answer.2.trace = e.trace := by unfold Env.answer; split <;> rfl

/-- A scripted answer. -/
theorem Env.answer_scripted (e : Env) {a : Bool} {rest : List Bool} (h : e.answers = a :: rest) :
    e.answer = (a, { e with answers := rest }) := by
  simp [Env.answer, h]

end Sys2Proof.Machine
end

