-- ==== Sys2Proof/Laws/Memory.lean ====
section
/-! SUPPORT. The byte spaces: read after write, the canonical form kept by every operation, equality from reads. -/

namespace Sys2Proof.Machine

@[simp] theorem Memory.read_nil (a : Nat) : Memory.read [] a = 0#8 := rfl

theorem Memory.read_cons (k : Nat) (b : Byte) (t : Memory) (a : Nat) :
    Memory.read ((k, b) :: t) a = if k = a then b else Memory.read t a := rfl

/-- An offset listed nowhere reads 0x00. -/
theorem Memory.read_of_unlisted (m : Memory) (a : Nat) (h : ∀ c ∈ m, c.1 ≠ a) : m.read a = 0#8 := by
  induction m with
  | nil => rfl
  | cons c t ih =>
    obtain ⟨k, b⟩ := c
    rw [Memory.read_cons, if_neg (h (k, b) (List.mem_cons_self ..))]
    exact ih fun c hc => h c (List.mem_cons_of_mem _ hc)

/-- A filter that keeps offset `a` does not change what `a` reads. -/
theorem Memory.read_filter_keep (m : Memory) (p : Host.Cell → Bool) (a : Nat) (h : ∀ b, p (a, b) = true) :
    Memory.read (m.filter p) a = m.read a := by
  induction m with
  | nil => rfl
  | cons c t ih =>
    obtain ⟨k, b⟩ := c
    by_cases hk : k = a
    · subst hk; simp [h, Memory.read_cons]
    · by_cases hp : p (k, b) = true
      · simp [hp, Memory.read_cons, hk, ih]
      · simp [hp, Memory.read_cons, hk, ih]

/-- A filter that drops offset `a` leaves it 0x00. -/
theorem Memory.read_filter_drop (m : Memory) (p : Host.Cell → Bool) (a : Nat) (h : ∀ b, p (a, b) = false) :
    Memory.read (m.filter p) a = 0#8 := by
  refine Memory.read_of_unlisted _ _ fun c hc hca => ?_
  obtain ⟨k, b⟩ := c
  have := (List.mem_filter.1 hc).2
  simp only at hca
  subst hca
  simp [h] at this

/-- Reading through a concatenation whose first part lists `a` nowhere. -/
theorem Memory.read_append_right (m m' : Memory) (a : Nat) (h : ∀ c ∈ m, c.1 ≠ a) :
    Memory.read (m ++ m') a = m'.read a := by
  induction m with
  | nil => rfl
  | cons c t ih =>
    obtain ⟨k, b⟩ := c
    rw [List.cons_append, Memory.read_cons, if_neg (h (k, b) (List.mem_cons_self ..))]
    exact ih fun c hc => h c (List.mem_cons_of_mem _ hc)

/-- Reading through a concatenation whose second part lists `a` nowhere. -/
theorem Memory.read_append_left (m m' : Memory) (a : Nat) (h : ∀ c ∈ m', c.1 ≠ a) :
    Memory.read (m ++ m') a = m.read a := by
  induction m with
  | nil => simpa using Memory.read_of_unlisted m' a h
  | cons c t ih =>
    obtain ⟨k, b⟩ := c
    rw [List.cons_append, Memory.read_cons, Memory.read_cons, ih]

/-- Where the cells of a run stand. -/
theorem mem_cellsOf {a : Nat} {bs : List Byte} {c : Host.Cell} (h : c ∈ cellsOf a bs) :
    a ≤ c.1 ∧ c.1 < a + bs.length ∧ c.2 ≠ 0#8 := by
  induction bs generalizing a with
  | nil => simp [cellsOf] at h
  | cons b t ih =>
    simp only [cellsOf] at h
    split at h
    · obtain ⟨h1, h2, h3⟩ := ih h
      simp only [List.length_cons]; exact ⟨by omega, by omega, h3⟩
    · rcases List.mem_cons.1 h with rfl | h
      · simp only [List.length_cons]; exact ⟨by omega, by omega, by assumption⟩
      · obtain ⟨h1, h2, h3⟩ := ih h
        simp only [List.length_cons]; exact ⟨by omega, by omega, h3⟩

/-- The cells of a run read back the run. -/
theorem read_cellsOf (a : Nat) (bs : List Byte) (x : Nat) :
    Memory.read (cellsOf a bs) x = if a ≤ x ∧ x < a + bs.length then bs.getD (x - a) 0#8 else 0#8 := by
  induction bs generalizing a with
  | nil => simp [cellsOf]
  | cons b t ih =>
    by_cases hx : x = a
    · subst hx
      by_cases hb : b = 0#8
      · simp only [cellsOf, hb, if_true, ih]
        simp
      · simp [cellsOf, hb, Memory.read_cons]
    · have hx' : ¬ a = x := fun h => hx h.symm
      have key : Memory.read (cellsOf a (b :: t)) x = Memory.read (cellsOf (a + 1) t) x := by
        simp only [cellsOf]; split
        · rfl
        · rw [Memory.read_cons, if_neg hx']
      rw [key, ih]
      by_cases hr : a ≤ x ∧ x < a + (b :: t).length
      · obtain ⟨h1, h2⟩ := hr
        simp only [List.length_cons] at h2
        rw [if_pos ⟨by omega, by omega⟩, if_pos ⟨h1, by simp only [List.length_cons]; omega⟩]
        have : x - a = (x - (a + 1)) + 1 := by omega
        rw [this, List.getD_cons_succ]
      · have : ¬ (a + 1 ≤ x ∧ x < a + 1 + t.length) := by
          simp only [List.length_cons] at hr; omega
        rw [if_neg hr, if_neg this]

/-- What a write does, at every offset (R11). -/
theorem Memory.read_write (m : Memory) (a : Nat) (bs : List Byte) (x : Nat) :
    (m.write a bs).read x = if a ≤ x ∧ x < a + bs.length then bs.getD (x - a) 0#8 else m.read x := by
  unfold Memory.write
  by_cases h1 : x < a
  · rw [Memory.read_append_left _ _ _ (fun c hc => by
          have := (List.mem_filter.1 hc).2; simp at this; omega),
        Memory.read_append_left _ _ _ (fun c hc => by have := mem_cellsOf hc; omega),
        Memory.read_filter_keep _ _ _ (by simp [h1]), if_neg (by omega)]
  · by_cases h2 : a + bs.length ≤ x
    · rw [List.append_assoc, Memory.read_append_right _ _ _ (fun c hc => by
            have := (List.mem_filter.1 hc).2; simp at this; omega),
          Memory.read_append_right _ _ _ (fun c hc => by have := mem_cellsOf hc; omega),
          Memory.read_filter_keep _ _ _ (by simp [h2]), if_neg (by omega)]
    · rw [List.append_assoc, Memory.read_append_right _ _ _ (fun c hc => by
            have := (List.mem_filter.1 hc).2; simp at this; omega),
          Memory.read_append_left _ _ _ (fun c hc => by
            have := (List.mem_filter.1 hc).2; simp at this; omega),
          read_cellsOf]
      simp only [show a ≤ x ∧ x < a + bs.length by omega, and_self, if_true]

/-- Zeroing, at every offset (R78). -/
theorem Memory.read_zeroBelow (m : Memory) (n x : Nat) :
    (m.zeroBelow n).read x = if x < n then 0#8 else m.read x := by
  unfold Memory.zeroBelow
  split
  · exact Memory.read_filter_drop _ _ _ (by simp; omega)
  · exact Memory.read_filter_keep _ _ _ (by simp; omega)

/-! ### The canonical form -/

theorem Memory.wf_nil : Memory.wf [] := ⟨List.Pairwise.nil, by simp⟩

theorem Memory.wf_filter {m : Memory} (h : m.wf) (p : Host.Cell → Bool) : Memory.wf (m.filter p) :=
  ⟨h.1.filter _, fun c hc => h.2 c (List.mem_filter.1 hc).1⟩

theorem cellsOf_wf (a : Nat) (bs : List Byte) : Memory.wf (cellsOf a bs) := by
  refine ⟨?_, fun c hc => (mem_cellsOf hc).2.2⟩
  induction bs generalizing a with
  | nil => exact List.Pairwise.nil
  | cons b t ih =>
    simp only [cellsOf]; split
    · exact ih _
    · refine List.Pairwise.cons (fun c hc => ?_) (ih _)
      have := mem_cellsOf hc
      show a < c.1
      omega

/-- A write keeps the canonical form. -/
theorem Memory.write_wf {m : Memory} (h : m.wf) (a : Nat) (bs : List Byte) : (m.write a bs).wf := by
  refine ⟨?_, ?_⟩
  · unfold Memory.write
    rw [List.append_assoc]
    refine List.pairwise_append.2 ⟨(Memory.wf_filter h _).1, List.pairwise_append.2
      ⟨(cellsOf_wf a bs).1, (Memory.wf_filter h _).1, ?_⟩, ?_⟩
    · intro x hx y hy
      have := mem_cellsOf hx
      have := (List.mem_filter.1 hy).2
      simp at this; omega
    · intro x hx y hy
      have h1 := (List.mem_filter.1 hx).2
      simp at h1
      rcases List.mem_append.1 hy with hy | hy
      · have := mem_cellsOf hy; omega
      · have := (List.mem_filter.1 hy).2
        simp at this; omega
  · intro c hc
    unfold Memory.write at hc
    rcases List.mem_append.1 hc with hc | hc
    · rcases List.mem_append.1 hc with hc | hc
      · exact h.2 c (List.mem_filter.1 hc).1
      · exact (mem_cellsOf hc).2.2
    · exact h.2 c (List.mem_filter.1 hc).1

/-- Zeroing keeps the canonical form. -/
theorem Memory.zeroBelow_wf {m : Memory} (h : m.wf) (n : Nat) : (m.zeroBelow n).wf := Memory.wf_filter h _

/-- Canonical byte spaces with the same bytes are the same data. -/
theorem Memory.ext_of_wf {m m' : Memory} (h : m.wf) (h' : m'.wf) (hr : ∀ a, m.read a = m'.read a) : m = m' := by
  induction m generalizing m' with
  | nil =>
    cases m' with
    | nil => rfl
    | cons c t =>
      obtain ⟨k, b⟩ := c
      have := hr k
      simp [Memory.read_cons] at this
      exact absurd this.symm (h'.2 (k, b) (List.mem_cons_self ..))
  | cons c t ih =>
    obtain ⟨k, b⟩ := c
    have hb : b ≠ 0#8 := h.2 (k, b) (List.mem_cons_self ..)
    have ht : Memory.wf t := ⟨(List.pairwise_cons.1 h.1).2, fun c hc => h.2 c (List.mem_cons_of_mem _ hc)⟩
    have hlt : ∀ c ∈ t, k < c.1 := (List.pairwise_cons.1 h.1).1
    cases m' with
    | nil =>
      have := hr k
      simp [Memory.read_cons] at this
      exact absurd this hb
    | cons c' t' =>
      obtain ⟨k', b'⟩ := c'
      have hb' : b' ≠ 0#8 := h'.2 (k', b') (List.mem_cons_self ..)
      have ht' : Memory.wf t' :=
        ⟨(List.pairwise_cons.1 h'.1).2, fun c hc => h'.2 c (List.mem_cons_of_mem _ hc)⟩
      have hlt' : ∀ c ∈ t', k' < c.1 := (List.pairwise_cons.1 h'.1).1
      have hk : k = k' := by
        by_contra hne
        rcases Nat.lt_or_gt_of_ne hne with hkk | hkk
        · have := hr k
          rw [Memory.read_cons, if_pos rfl, Memory.read_cons, if_neg (by omega),
            Memory.read_of_unlisted t' k (fun c hc => by have := hlt' c hc; omega)] at this
          exact hb this
        · have := hr k'
          rw [Memory.read_cons, if_neg (by omega), Memory.read_cons, if_pos rfl,
            Memory.read_of_unlisted t k' (fun c hc => by have := hlt c hc; omega)] at this
          exact hb' this.symm
      subst hk
      have hbb : b = b' := by simpa [Memory.read_cons] using hr k
      subst hbb
      refine congrArg _ (ih ht ht' fun a => ?_)
      by_cases ha : k = a
      · subst ha
        rw [Memory.read_of_unlisted t k (fun c hc => by have := hlt c hc; omega),
          Memory.read_of_unlisted t' k (fun c hc => by have := hlt' c hc; omega)]
      · have := hr a
        rwa [Memory.read_cons, if_neg ha, Memory.read_cons, if_neg ha] at this

/-! ### Runs -/

@[simp] theorem Memory.length_readRun (m : Memory) (a n : Nat) : (m.readRun a n).length = n := by
  induction n generalizing a with
  | zero => rfl
  | succ n ih => simp [Memory.readRun, ih]

/-- Byte `i` of a run (R11). -/
theorem Memory.getElem?_readRun (m : Memory) (a n i : Nat) :
    (m.readRun a n)[i]? = if i < n then some (m.read (a + i)) else none := by
  induction n generalizing a i with
  | zero => simp [Memory.readRun]
  | succ n ih =>
    cases i with
    | zero => simp [Memory.readRun]
    | succ i =>
      simp only [Memory.readRun, List.getElem?_cons_succ, ih, Nat.add_lt_add_iff_right]
      rw [show a + 1 + i = a + (i + 1) by omega]

/-- A run depends only on the bytes it covers. -/
theorem Memory.readRun_congr {m m' : Memory} {a n : Nat} (h : ∀ i, i < n → m.read (a + i) = m'.read (a + i)) :
    m.readRun a n = m'.readRun a n := by
  refine List.ext_getElem? fun i => ?_
  rw [Memory.getElem?_readRun, Memory.getElem?_readRun]
  split
  · rw [h i ‹_›]
  · rfl

/-- A run that was just written reads back. -/
theorem Memory.readRun_write_self (m : Memory) (a : Nat) (bs : List Byte) :
    (m.write a bs).readRun a bs.length = bs := by
  refine List.ext_getElem? fun i => ?_
  rw [Memory.getElem?_readRun, Memory.read_write]
  by_cases hi : i < bs.length
  · simp [hi]
  · simp [hi]

/-- A part of a run that was just written. -/
theorem Memory.readRun_write_part (m : Memory) (a : Nat) (bs : List Byte) (k n : Nat) (h : k + n ≤ bs.length) :
    (m.write a bs).readRun (a + k) n = (bs.drop k).take n := by
  refine List.ext_getElem? fun i => ?_
  rw [Memory.getElem?_readRun, Memory.read_write]
  by_cases hi : i < n
  · have h1 : a ≤ a + k + i ∧ a + k + i < a + bs.length := by omega
    have h2 : k + i < bs.length := by omega
    simp [hi, h1, show a + k + i - a = k + i by omega, List.getElem?_drop, List.getElem?_eq_getElem h2]
  · simp [hi]

/-- Reading a longer run in two parts. -/
theorem Memory.readRun_append (m : Memory) (a n k : Nat) :
    m.readRun a (n + k) = m.readRun a n ++ m.readRun (a + n) k := by
  induction n generalizing a with
  | zero => simp [Memory.readRun]
  | succ n ih =>
    rw [show n + 1 + k = (n + k) + 1 by omega]
    simp only [Memory.readRun, List.cons_append, ih (a + 1)]
    rw [show a + 1 + n = a + (n + 1) by omega]

/-- Writing what is already there changes nothing. -/
theorem Memory.write_same {m : Memory} (hm : m.wf) {bs : List Byte} (h : m.readRun 0 bs.length = bs) :
    m.write 0 bs = m := by
  refine Memory.ext_of_wf (Memory.write_wf hm _ _) hm fun a => ?_
  rw [Memory.read_write]
  split
  · rename_i hh
    have := congrArg (fun l => l[a]?) h
    simp only [Memory.getElem?_readRun] at this
    rw [if_pos (by omega)] at this
    simp only [Nat.zero_add] at this
    simp [List.getD, ← this]
  · rfl

end Sys2Proof.Machine
end

