-- ==== Sys2Proof/Laws/Receiver.lean ====
section
/-! SUPPORT. What the receiver's shared operations and state actions do, each said once as an equation (42_receiver.md,
60_exceptions.md sections 4 and 5). -/

namespace Sys2Proof.Machine

@[simp] theorem rxbufUsed_eq : rxbufUsed = 1029 := rfl

/-! ### Registers after the assembler's reset and after a NakRetry -/

@[simp] theorem Rx.cleared_state (r : Rx) : r.cleared.state = r.state := rfl
@[simp] theorem Rx.cleared_asm (r : Rx) : r.cleared.asm = .awaitingSync := rfl
@[simp] theorem Rx.cleared_seq (r : Rx) : r.cleared.seq = r.seq := rfl
@[simp] theorem Rx.cleared_pktSize (r : Rx) : r.cleared.pktSize = 0#11 := rfl
@[simp] theorem Rx.cleared_retry (r : Rx) : r.cleared.retry = r.retry := rfl
@[simp] theorem Rx.cleared_last (r : Rx) : r.cleared.last = r.last := rfl
@[simp] theorem Rx.cleared_fill (r : Rx) : r.cleared.fill = 0#11 := rfl
@[simp] theorem Rx.cleared_need (r : Rx) : r.cleared.need = 0#11 := rfl
@[simp] theorem Rx.cleared_active (r : Rx) : r.cleared.active = r.active := rfl
@[simp] theorem Rx.cleared_reason (r : Rx) : r.cleared.reason = r.reason := rfl
@[simp] theorem Rx.cleared_now (r : Rx) : r.cleared.now = r.now := rfl

/-- NakRetry either exhausts the budget or leaves RX_STATE and REASON (R183). -/
theorem Rx.afterNak_cases (r : Rx) (rsn : Reason) :
    (3 ≤ (r.retry + 1#8).toNat ∧ r.afterNak rsn =
      { r.cleared with retry := r.retry + 1#8, last := r.now, reason := rsn, state := .recvErr }) ∨
    ((r.retry + 1#8).toNat < 3 ∧ r.afterNak rsn = { r.cleared with retry := r.retry + 1#8, last := r.now }) := by
  unfold Rx.afterNak
  split
  · exact .inl ⟨‹_›, rfl⟩
  · exact .inr ⟨by omega, rfl⟩

@[simp] theorem Rx.afterNak_active (r : Rx) (rsn : Reason) : (r.afterNak rsn).active = r.active := by
  rcases r.afterNak_cases rsn with ⟨_, h⟩ | ⟨_, h⟩ <;> simp [h]
@[simp] theorem Rx.afterNak_seq (r : Rx) (rsn : Reason) : (r.afterNak rsn).seq = r.seq := by
  rcases r.afterNak_cases rsn with ⟨_, h⟩ | ⟨_, h⟩ <;> simp [h]
@[simp] theorem Rx.afterNak_retry (r : Rx) (rsn : Reason) : (r.afterNak rsn).retry = r.retry + 1#8 := by
  rcases r.afterNak_cases rsn with ⟨_, h⟩ | ⟨_, h⟩ <;> simp [h]

/-- AsmReset as one record update (R78). -/
theorem State.asmReset_eq (s : State) :
    s.asmReset = { s with rx := s.rx.cleared, rxbuf := s.rxbuf.zeroBelow 1029 } := rfl

/-- NakRetry as one record update: one NAK, and the registers of `Rx.afterNak` (R183). -/
theorem State.nakRetry_eq (s : State) (rsn : Reason) :
    s.nakRetry rsn = { s with rx := s.rx.afterNak rsn, rxbuf := s.rxbuf.zeroBelow 1029, env := s.env.put 0x15#8 } := by
  unfold State.nakRetry Rx.afterNak
  simp only [rxRetryLimit, State.asmReset, State.put, Rx.cleared, State.terminal]
  split <;> simp_all [symNAK]

/-- Zeroing the used part of RXBUF, read through `rxbufCleared` (R78). -/
theorem rxbufCleared_of_zeroBelow {s t : State} (h : t.rxbuf = s.rxbuf.zeroBelow 1029) : rxbufCleared s t := by
  intro a; rw [h, Memory.read_zeroBelow]

/-- A write inside the used part is gone after the zeroing. -/
theorem Memory.read_zeroBelow_write (m : Memory) (a : Nat) (bs : List Byte) (n x : Nat) (h : a + bs.length ≤ n) :
    ((m.write a bs).zeroBelow n).read x = if x < n then 0#8 else m.read x := by
  rw [Memory.read_zeroBelow]
  split
  · rfl
  · rw [Memory.read_write, if_neg (by omega)]

/-! ### Endings of a poll -/

/-- A framing error (R183). -/
theorem State.framingError_eq (s : State) (rsn : Reason) :
    s.framingError rsn = .next { s with
      rx := s.rx.afterNak rsn, rxbuf := s.rxbuf.zeroBelow 1029, env := s.env.put 0x15#8, result := .status .noEvent } := by
  unfold State.framingError; rw [State.nakRetry_eq]; rfl

/-- A terminal cause judged in this poll (R280). -/
theorem State.terminalStep_eq (s : State) (reason : Reason) (via : RxState) :
    s.terminalStep reason via = .next { s with
      rx := { s.rx.cleared with reason := reason, state := via }, rxbuf := s.rxbuf.zeroBelow 1029
      result := .status .noEvent } := rfl

/-- The terminal action (R281). -/
theorem State.terminalAction_eq (s : State) :
    s.terminalAction = .next { s with
      rx := { s.rx.cleared with state := .idle, active := false }, rxbuf := s.rxbuf.zeroBelow 1029
      env := (s.env.puts (List.replicate 5 0x18#8)).onFinish s.rx.reason
      result := .status .failure } := rfl

/-- The Idle action (R186). -/
theorem State.idleAction_eq (s : State) :
    s.idleAction = .next { s with
      rx := { s.rx.cleared with state := .recvHeader, seq := 0#8, retry := 0#8, last := s.rx.now }
      rxbuf := s.rxbuf.zeroBelow 1029, env := s.env.clearIn.put 0x43#8, result := .status .noEvent } := rfl

/-! ### Actions on a verdict -/

/-- RecvHeader, Valid (R189 to R191). -/
theorem State.headerFrame_cases (s : State) :
    (parseHeader s.par.filesizeLimit s.payload = none ∧
      s.headerFrame = .next { s with
        rx := { s.rx.cleared with reason := .headerParseError, state := .recvErr }, rxbuf := s.rxbuf.zeroBelow 1029
        result := .status .noEvent }) ∨
    (∃ name size, parseHeader s.par.filesizeLimit s.payload = some (name, size) ∧
      (s.env.answer.1 = false ∧ s.headerFrame = .next { s with
        rx := { s.rx.cleared with reason := .headerParseError, state := .recvErr }, rxbuf := s.rxbuf.zeroBelow 1029
        env := s.env.answer.2.record (.onHeader name size false), result := .status .noEvent } ∨
       s.env.answer.1 = true ∧ s.headerFrame = .next { s with
        rx := { s.rx.cleared with state := .recvData, seq := 1#8, active := true, retry := 0#8, last := s.rx.now }
        rxbuf := s.rxbuf.zeroBelow 1029
        env := ((s.env.answer.2.record (.onHeader name size true)).put 0x06#8).put 0x43#8
        result := .status .noEvent })) := by
  unfold State.headerFrame
  cases h : parseHeader s.par.filesizeLimit s.payload with
  | none => exact .inl ⟨rfl, rfl⟩
  | some r =>
    refine .inr ⟨r.1, r.2, rfl, ?_⟩
    cases ha : s.env.answer.1 with
    | false => exact .inl ⟨rfl, by simp [Env.onHeader, ha, State.terminalStep_eq]⟩
    | true =>
      refine .inr ⟨rfl, ?_⟩
      simp only [Env.onHeader, ha, if_true, State.put, State.setSeq, State.setActive, State.progress, State.goto,
        State.asmReset, State.finish, Rx.cleared, rxbufUsed, symACK, symC]

/-- RecvData, Valid (R194, R195). -/
theorem State.dataFrame_cases (s : State) :
    (s.env.answer.1 = true ∧ s.dataFrame = .next { s with
      rx := { s.rx.cleared with seq := s.rx.seq + 1#8, retry := 0#8, last := s.rx.now }
      rxbuf := s.rxbuf.zeroBelow 1029
      env := (s.env.answer.2.record (.onPacket s.payload s.rx.pktSize.toNat true)).put 0x06#8
      result := .status .noEvent }) ∨
    (s.env.answer.1 = false ∧ s.dataFrame = .next { s with
      rx := { s.rx.cleared with reason := .packetProcessingError, state := .recvErr }
      rxbuf := s.rxbuf.zeroBelow 1029
      env := s.env.answer.2.record (.onPacket s.payload s.rx.pktSize.toNat false)
      result := .status .noEvent }) := by
  unfold State.dataFrame
  cases ha : s.env.answer.1 with
  | true =>
    refine .inl ⟨rfl, ?_⟩
    simp only [Env.onPacket, ha, if_true, State.put, State.setSeq, State.progress, State.asmReset, State.finish,
      Rx.cleared, rxbufUsed, symACK]
  | false => exact .inr ⟨rfl, by simp [Env.onPacket, ha, State.terminalStep_eq]⟩

/-- RecvData, EOT (R196). -/
theorem State.dataAction_eot (s : State) :
    s.dataAction (.control 0x04#8) = .next { s with
      rx := { s.rx.cleared with state := .recvEotConfirm, retry := 0#8, last := s.rx.now }
      rxbuf := s.rxbuf.zeroBelow 1029, env := s.env.put 0x15#8, result := .status .noEvent } := rfl

/-- RecvEotConfirm, EOT (R200). -/
theorem State.eotAction_eot (s : State) :
    s.eotAction (.control 0x04#8) = .next { s with
      rx := { s.rx.cleared with state := .recvFinish, seq := 0#8, retry := 0#8, last := s.rx.now }
      rxbuf := s.rxbuf.zeroBelow 1029, env := (s.env.put 0x06#8).put 0x43#8, result := .status .noEvent } := rfl

/-- RecvFinish, Valid (R204 to R206). -/
theorem State.closingFrame_cases (s : State) :
    (s.rxbuf.read 3 = 0x00#8 ∧ s.closingFrame = .next { s with
      rx := { s.rx.cleared with state := .idle, active := false }, rxbuf := s.rxbuf.zeroBelow 1029
      env := (s.env.put 0x06#8).onFinish .success, result := .status .success }) ∨
    (s.rxbuf.read 3 ≠ 0x00#8 ∧ s.closingFrame = .next { s with
      rx := { s.rx.cleared with reason := .remoteTermination, state := .recvTerm }, rxbuf := s.rxbuf.zeroBelow 1029
      result := .status .noEvent }) := by
  unfold State.closingFrame
  split
  · exact .inl ⟨‹_›, rfl⟩
  · exact .inr ⟨‹_›, rfl⟩

/-- A receiving state's action on a verdict (R187, R193, R200 to R203). -/
def State.act (s : State) (v : Verdict) : Out :=
  match s.rx.state with
  | .recvHeader => s.headerAction v
  | .recvData => s.dataAction v
  | .recvEotConfirm => s.eotAction v
  | .recvFinish => s.finishAction v
  | _ => .next s

/-- What a judged candidate leads to, by verdict: CAN is terminal (R197), EOT has its two meanings (R196, R200), a Valid frame goes
to its state's rule, everything else is a framing error (R192, R198, R202, R208). -/
theorem State.act_cases (s : State) (v : Verdict) (hs : s.rx.state.receiving = true) :
    (v = .control 0x04#8 ∧ (s.rx.state = .recvData ∨ s.rx.state = .recvEotConfirm)) ∨
    (v = .valid ∧ s.rx.state = .recvHeader ∧ s.act v = s.headerFrame) ∨
    (v = .valid ∧ s.rx.state = .recvData ∧ s.act v = s.dataFrame) ∨
    (v = .valid ∧ s.rx.state = .recvFinish ∧ s.act v = s.closingFrame) ∨
    s.act v = s.framingError (nakReason s.par s.rx.state) := by
  unfold State.act
  cases h : s.rx.state <;> simp [h, RxState.receiving] at hs <;> cases v with
  | control b =>
    by_cases hb : b = 0x04#8
    · simp [hb, State.headerAction, State.dataAction, State.eotAction, State.finishAction, nakReason]
    · simp [hb, symEOT, State.headerAction, State.dataAction, State.eotAction, State.finishAction, nakReason]
  | valid => simp [State.headerAction, State.dataAction, State.eotAction, State.finishAction, nakReason]
  | invalid c => simp [State.headerAction, State.dataAction, State.eotAction, State.finishAction, nakReason]

/-- The deadline: in RecvHeader back to Idle and nothing else (R188), in the other receiving states a NakRetry (R199, R202, R208). -/
theorem State.deadlineAction_cases (s : State) (hs : s.rx.state.receiving = true) :
    (s.rx.state = .recvHeader ∧ s.deadlineAction = .next { s with
      rx := { s.rx with state := .idle }, result := .status .noEvent }) ∨
    (s.rx.state ≠ .recvHeader ∧ s.deadlineAction = s.framingError (nakReason s.par s.rx.state)) := by
  unfold State.deadlineAction
  cases h : s.rx.state <;> simp [h, RxState.receiving, nakReason] at hs ⊢
  rfl

/-- The judgement of a candidate: CAN before every state rule, then the state's action (R178, R279). -/
theorem State.judge_eq (s : State) (hs : s.rx.state.receiving = true) {v : Verdict} {acc : Half}
    (hv : validate (s.rxbuf.readRun 0 s.rx.fill.toNat) s.rx.fill.toNat s.rx.seq s.crcAcc = (v, acc)) :
    s.judge = if v = .control 0x18#8 then
        { s with crcAcc := acc }.terminalStep .remoteTermination .recvTerm
      else { s with crcAcc := acc }.act v := by
  unfold State.judge State.act
  simp only [hv, symCAN]
  split
  · rfl
  · cases h : s.rx.state <;> simp [h, RxState.receiving] at hs ⊢

end Sys2Proof.Machine
end

