-- ==== Sys2Proof/Laws/Wire.lean ====
section
/-! SUPPORT. What reception of a unit does, by who reads it (Machine/Wire.lean; 30_encoding.md R101, R102). -/

namespace Sys2Proof.Machine

/-- RXBUF takes a run that fits (R60, R66). -/
theorem State.writeRxbuf_of_le {s : State} {a : Nat} {bs : List Byte} (h : a + bs.length ≤ s.cfg.rxbufSize.toNat) :
    s.writeRxbuf a bs = .ok { s with rxbuf := s.rxbuf.write a bs } := if_pos h

/-- The only other answer is the range fault. -/
theorem State.writeRxbuf_cases (s : State) (a : Nat) (bs : List Byte) :
    (a + bs.length ≤ s.cfg.rxbufSize.toNat ∧ s.writeRxbuf a bs = .ok { s with rxbuf := s.rxbuf.write a bs }) ∨
    (s.cfg.rxbufSize.toNat < a + bs.length ∧ s.writeRxbuf a bs = .error .rxbufRange) := by
  unfold State.writeRxbuf
  split
  · exact .inl ⟨‹_›, rfl⟩
  · exact .inr ⟨by omega, rfl⟩

/-- A one-byte candidate in RXBUF. -/
def State.withControl (s : State) (b : Byte) : State :=
  { s with rxbuf := s.rxbuf.write 0 [b], rx := { s.rx with fill := 1#11 } }

/-- A complete frame in RXBUF. -/
def State.withFrame (s : State) (n : Nat) (bytes : List Byte) : State :=
  { s with
    rxbuf := s.rxbuf.write 0 bytes
    rx := { s.rx with pktSize := BitVec.ofNat 11 n, need := BitVec.ofNat 11 (3 + n + 2), asm := .awaitingBody
                      fill := BitVec.ofNat 11 (3 + n + 2) } }

theorem State.loadControl_eq {s : State} (b : Byte) (h : 1 ≤ s.cfg.rxbufSize.toNat) :
    s.loadControl b = .ok (s.withControl b) := by
  unfold State.loadControl
  rw [State.writeRxbuf_of_le (by simpa using h)]
  rfl

theorem State.loadFrame_eq {s : State} (n : Nat) {bytes : List Byte} (h : bytes.length ≤ s.cfg.rxbufSize.toNat) :
    s.loadFrame n bytes = .ok (s.withFrame n bytes) := by
  unfold State.loadFrame
  rw [State.writeRxbuf_of_le (by simpa using h)]
  rfl

/-! ### The three readers -/

/-- Nobody reads (R101, R79). -/
theorem State.receive_deaf {s : State} (h : deaf s) (b : Byte) (rest : List Byte) (l : Except Fault State) :
    s.receive b rest l = .next (s.leavePending (b :: rest)) := by
  unfold State.receive
  rcases h with ⟨h1, h2⟩ | ⟨h1, h2 | h2 | h2⟩ <;> simp [h1, h2, RxState.receiving]

/-- A sender's wait reads (R232). -/
theorem State.receive_awaits {s : State} {p : TxPhase} (h : awaits s p) (b : Byte) (rest : List Byte)
    (l : Except Fault State) :
    s.receive b rest l = { s with env := { s.env with linkIn := rest ++ s.env.linkIn } }.txByte b := by
  obtain ⟨h1, h2, h3⟩ := h
  unfold State.receive
  simp [h1, h2, h3]

/-- A receiving state judges the unit (R178). -/
theorem State.receive_listens {s u : State} {st : RxState} (h : listens s st) (hr : st.receiving = true) (b : Byte)
    (rest : List Byte) {l : Except Fault State} (hl : l = .ok u) : s.receive b rest l = u.judge := by
  obtain ⟨h1, h2, h3⟩ := h
  unfold State.receive
  simp [h1, h2, h3, hr, hl]

/-! ### Candidates judged -/

theorem State.withControl_candidate (s : State) (b : Byte) :
    (s.withControl b).rxbuf.readRun 0 (s.withControl b).rx.fill.toNat = [b] := by
  show (s.rxbuf.write 0 [b]).readRun 0 1 = [b]
  exact Memory.readRun_write_self _ 0 [b]

theorem State.withFrame_candidate (s : State) {n : Nat} {bytes : List Byte} (hn : n ≤ 1024) (h : bytes.length = n + 5) :
    (s.withFrame n bytes).rxbuf.readRun 0 (s.withFrame n bytes).rx.fill.toNat = bytes ∧
    (s.withFrame n bytes).rx.fill.toNat = n + 5 := by
  have hf : (s.withFrame n bytes).rx.fill.toNat = n + 5 := by
    simp only [State.withFrame, BitVec.toNat_ofNat]; omega
  refine ⟨?_, hf⟩
  rw [hf, ← h]
  exact Memory.readRun_write_self _ 0 bytes

/-- The payload of a loaded frame (R65). -/
theorem State.withFrame_payload (s : State) {h seq nseq hi lo : Byte} {payload : List Byte} (hn : payload.length ≤ 1024) :
    (s.withFrame payload.length (frameBytes h seq nseq payload hi lo)).payload = payload := by
  unfold State.payload
  have hp : (s.withFrame payload.length (frameBytes h seq nseq payload hi lo)).rx.pktSize.toNat = payload.length := by
    simp only [State.withFrame, BitVec.toNat_ofNat]; omega
  rw [hp]
  have := Memory.readRun_write_part s.rxbuf 0 (frameBytes h seq nseq payload hi lo) 3 payload.length (by simp; omega)
  simp only [Nat.zero_add] at this
  rw [State.withFrame, this]
  simp [frameBytes]

/-- A one-byte unit judged in a receiving state (R178). -/
theorem State.receive_control_judged {s : State} {st : RxState} (h : listens s st) (hr : st.receiving = true)
    (hb : 1 ≤ s.cfg.rxbufSize.toNat) (b : Byte) (rest : List Byte) {v : Verdict} {acc : Half}
    (hv : validate [b] 1 s.rx.seq s.crcAcc = (v, acc)) :
    s.receive b rest (s.loadControl b) =
      if v = .control 0x18#8 then { s.withControl b with crcAcc := acc }.terminalStep .remoteTermination .recvTerm
      else { s.withControl b with crcAcc := acc }.act v := by
  rw [State.receive_listens h hr b rest (State.loadControl_eq b hb)]
  refine State.judge_eq _ (by obtain ⟨_, _, h⟩ := h; exact h ▸ hr) ?_
  rw [State.withControl_candidate]
  exact hv

/-- A frame judged in a receiving state (R178). -/
theorem exec_frame_judged {s : State} {st : RxState} (h : listens s st) (hr : st.receiving = true) {i : Instr}
    {seq nseq hi lo : Byte} {payload : List Byte} (hf : isFrame i seq nseq payload hi lo)
    (hb : payload.length + 5 ≤ s.cfg.rxbufSize.toNat) :
    ∃ hd, payloadSize hd = some payload.length ∧ payload.length ≤ 1024 ∧ ∀ v acc,
      validate (frameBytes hd seq nseq payload hi lo) (payload.length + 5) s.rx.seq s.crcAcc = (v, acc) →
      exec i s =
        if v = .control 0x18#8 then
          { s.withFrame payload.length (frameBytes hd seq nseq payload hi lo) with
            crcAcc := acc }.terminalStep .remoteTermination .recvTerm
        else
          { s.withFrame payload.length (frameBytes hd seq nseq payload hi lo) with crcAcc := acc }.act v := by
  have key : ∀ hd n rest, n = payload.length → n ≤ 1024 → ∀ v acc,
      validate (frameBytes hd seq nseq payload hi lo) (payload.length + 5) s.rx.seq s.crcAcc = (v, acc) →
      s.receive hd rest (s.loadFrame n (frameBytes hd seq nseq payload hi lo)) =
        if v = .control 0x18#8 then
          { s.withFrame payload.length (frameBytes hd seq nseq payload hi lo) with
            crcAcc := acc }.terminalStep .remoteTermination .recvTerm
        else
          { s.withFrame payload.length (frameBytes hd seq nseq payload hi lo) with crcAcc := acc }.act v := by
    rintro hd n rest rfl hn v acc hv
    rw [State.receive_listens h hr hd rest (State.loadFrame_eq _ (by simpa using hb))]
    refine State.judge_eq _ (by obtain ⟨_, _, h⟩ := h; exact h ▸ hr) ?_
    have := State.withFrame_candidate s (n := payload.length) (bytes := frameBytes hd seq nseq payload hi lo) hn (by simp)
    rw [this.1, this.2]; exact hv
  rcases hf with ⟨rfl, hl⟩ | ⟨rfl, hl⟩
  · exact ⟨0x01#8, by rw [hl]; rfl, by omega, fun v acc hv => key 0x01#8 128 _ hl.symm (by omega) v acc hv⟩
  · exact ⟨0x02#8, by rw [hl]; rfl, by omega, fun v acc hv => key 0x02#8 1024 _ hl.symm (by omega) v acc hv⟩

/-- A unit that was loaded and then cleared leaves RXBUF as AsmReset alone does (R78). -/
theorem rxbufCleared_of_write {s t : State} (bs : List Byte) (h : bs.length ≤ 1029)
    (ht : t.rxbuf = (s.rxbuf.write 0 bs).zeroBelow 1029) : rxbufCleared s t := by
  intro a; rw [ht, Memory.read_zeroBelow_write _ _ _ _ _ (by omega)]

end Sys2Proof.Machine
end

