-- ==== Sys2Proof/Laws/Assembler.lean ====
section
/-! SUPPORT. The byte assembler and the poll around it, said once (42_receiver.md section 2, R170, R185). -/

namespace Sys2Proof.Machine

/-! ### One assembler action -/

/-- SyncAction that read EOF. -/
def State.noByte (s : State) : State := { s with env := (s.env.get s.cfg.charTimeout).2 }

/-- SyncAction that read the byte `b`: stored at offset 0. -/
def State.tookSync (s : State) (b : Byte) : State :=
  { s with env := (s.env.get s.cfg.charTimeout).2, rxbuf := s.rxbuf.write 0 [b], rx := { s.rx with fill := 1#11 } }

/-- BodyAction: what LinkRecv handed over is stored at the next offsets. -/
def State.tookBody (s : State) : State :=
  { s with
    env := (s.env.recv (s.rx.need.toNat - s.rx.fill.toNat)).2
    rxbuf := s.rxbuf.write s.rx.fill.toNat (s.env.recv (s.rx.need.toNat - s.rx.fill.toNat)).1
    rx := { s.rx with
      fill := s.rx.fill + BitVec.ofNat 11 (s.env.recv (s.rx.need.toNat - s.rx.fill.toNat)).1.length } }

/-- What SyncAction can do, when offset 0 exists (R176): nothing on EOF, a frame opened by SOH or STX, or a one-byte candidate. -/
theorem State.syncAction_cases (s : State) (hb : 1 ≤ s.cfg.rxbufSize.toNat) :
    ((s.env.get s.cfg.charTimeout).1 = none ∧ s.syncAction = .ok (false, s.noByte)) ∨
    (∃ b n, (s.env.get s.cfg.charTimeout).1 = some b ∧ payloadSize b = some n ∧
      s.syncAction = .ok (false, (s.tookSync b).openFrame n)) ∨
    (∃ b, (s.env.get s.cfg.charTimeout).1 = some b ∧ payloadSize b = none ∧ s.syncAction = .ok (true, s.tookSync b)) := by
  rcases hg : s.env.get s.cfg.charTimeout with ⟨_ | b, e⟩
  · refine .inl ⟨rfl, ?_⟩
    simp only [State.syncAction, State.noByte, hg]
  · have hw : ({ s with env := e } : State).writeRxbuf 0 [b] = .ok { s with env := e, rxbuf := s.rxbuf.write 0 [b] } :=
      State.writeRxbuf_of_le (by simpa using hb)
    cases hp : payloadSize b with
    | none => exact .inr (.inr ⟨b, rfl, hp, by simp only [State.syncAction, State.tookSync, hg, hw, hp]⟩)
    | some n => exact .inr (.inl ⟨b, n, rfl, hp, by simp only [State.syncAction, State.tookSync, hg, hw, hp]⟩)

/-- What BodyAction does, when the frame fits RXBUF (R177). -/
theorem State.bodyAction_eq (s : State) (hn : s.rx.fill.toNat ≤ s.rx.need.toNat)
    (hb : s.rx.need.toNat ≤ s.cfg.rxbufSize.toNat) :
    s.bodyAction = .ok (decide (s.tookBody.rx.fill = s.rx.need), s.tookBody) := by
  have := s.env.recv_length (s.rx.need.toNat - s.rx.fill.toNat)
  unfold State.bodyAction
  dsimp only
  rw [State.writeRxbuf_of_le (by dsimp only; omega)]
  rfl

/-- The frame is complete exactly when LinkRecv handed over all it lacked (R177). -/
theorem State.tookBody_complete_iff (s : State) (hn : s.rx.fill.toNat ≤ s.rx.need.toNat) :
    s.tookBody.rx.fill = s.rx.need ↔
      (s.env.recv (s.rx.need.toNat - s.rx.fill.toNat)).1.length = s.rx.need.toNat - s.rx.fill.toNat := by
  have hl := s.env.recv_length (s.rx.need.toNat - s.rx.fill.toNat)
  have h1 := s.rx.need.isLt
  simp only [State.tookBody]
  generalize (s.env.recv (s.rx.need.toNat - s.rx.fill.toNat)).1.length = k at hl
  rw [← BitVec.toNat_inj, BitVec.toNat_add, BitVec.toNat_ofNat]
  omega

/-! ### The poll -/

/-- RX_STEP admitted (R312, R320). -/
theorem exec_rxStep {s : State} {st : RxState} (h : listens s st) : exec .rxStep s = s.rxStep := by
  obtain ⟨h1, h2, _⟩ := h
  show execRxStep s = _
  simp [execRxStep, State.free, h1, h2]

/-- Every receiving state polls. -/
theorem State.rxStep_receiving {s : State} (hr : s.rx.state.receiving = true) : s.rxStep = s.latchTick.poll := by
  unfold State.rxStep
  cases h : s.rx.state <;> simp [h, RxState.receiving] at hr ⊢

/-- A poll that completes a candidate judges it (R178). -/
theorem State.poll_candidate {s u : State} (h : s.assemble = .ok (true, u)) : s.poll = u.judge := by
  unfold State.poll; rw [h]

/-- A poll that completes none tests the deadline (R185). -/
theorem State.poll_none {s u : State} (h : s.assemble = .ok (false, u)) :
    s.poll = if u.expired then u.deadlineAction else .next { u with result := .status .noEvent } := by
  unfold State.poll; rw [h]; rfl

/-- Expired, at the tick just latched (R181). -/
theorem State.latchTick_expired (s : State) :
    s.latchTick.expired = decide (s.cfg.sessionTimeout.toNat ≤ (s.env.readTick.1 - s.rx.last).toNat) := rfl

end Sys2Proof.Machine
end

