-- ==== Sys2Proof/Laws/Crc.lean ====
section
/-! SUPPORT. One round of the CRC register, and one byte: linear and injective (40_crc16.md R131, R135). -/

namespace Sys2Proof.Machine

/-- A round, in arithmetic (R131). -/
theorem crcRound_toNat (a : Half) :
    (crcRound a).toNat = if 32768 ≤ a.toNat then (2 * a.toNat % 65536) ^^^ 0x1021 else 2 * a.toNat := by
  unfold crcRound crcPoly
  have h := BitVec.msb_eq_decide a
  by_cases hm : 32768 ≤ a.toNat
  · have : a.msb = true := by rw [h]; simp; omega
    rw [this, if_pos rfl, if_pos hm, BitVec.toNat_xor, BitVec.toNat_shiftLeft, Nat.shiftLeft_eq]
    congr 1; rw [Nat.mul_comm]
  · have : a.msb = false := by rw [h]; simp; omega
    rw [this, if_neg (by decide), if_neg hm, BitVec.toNat_shiftLeft, Nat.shiftLeft_eq]; omega

/-- A round is linear. -/
theorem crcRound_xor (a b : Half) : crcRound (a ^^^ b) = crcRound a ^^^ crcRound b := by
  have swap : ∀ x y z : Half, x ^^^ y = x ^^^ z ^^^ (y ^^^ z) := by
    intro x y z
    rw [BitVec.xor_assoc, ← BitVec.xor_assoc z, BitVec.xor_comm z y, BitVec.xor_assoc y]; simp
  unfold crcRound
  rw [BitVec.msb_xor, BitVec.shiftLeft_xor_distrib]
  cases a.msb <;> cases b.msb <;> simp
  · rw [BitVec.xor_assoc]
  · rw [BitVec.xor_assoc, BitVec.xor_assoc]; congr 1; rw [BitVec.xor_comm]
  · exact swap _ _ _

/-- Only zero goes to zero. -/
theorem crcRound_eq_zero (x : Half) (h : crcRound x = 0#16) : x = 0#16 := by
  have hx := crcRound_toNat x
  rw [h] at hx
  split at hx
  · have : 2 * x.toNat % 65536 = 0x1021 := Nat.xor_eq_zero_iff.1 hx.symm
    omega
  · apply BitVec.eq_of_toNat_eq
    have : (0#16 : Half).toNat = 0 := rfl
    omega

/-- A round loses nothing. -/
theorem crcRound_inj {a b : Half} (h : crcRound a = crcRound b) : a = b :=
  BitVec.xor_eq_zero_iff.1 (crcRound_eq_zero _ (by rw [crcRound_xor, h]; simp))

/-- A byte is linear in the accumulator and the byte together. -/
theorem crcByte_xor (a b : Half) (x y : Byte) : crcByte (a ^^^ b) (x ^^^ y) = crcByte a x ^^^ crcByte b y := by
  unfold crcByte
  simp only [← crcRound_xor]
  congr 8
  rw [BitVec.setWidth_xor, BitVec.shiftLeft_xor_distrib]
  ac_rfl

/-- The accumulator and the byte enter a byte's rounds as one XOR. -/
theorem crcByte_inj {a b : Half} {x y : Byte} (h : crcByte a x = crcByte b y) :
    a ^^^ (x.setWidth 16 <<< 8) = b ^^^ (y.setWidth 16 <<< 8) := by
  unfold crcByte at h
  exact crcRound_inj (crcRound_inj (crcRound_inj (crcRound_inj (crcRound_inj (crcRound_inj
    (crcRound_inj (crcRound_inj h)))))))

/-- The high half of the accumulator can be moved into the byte. -/
theorem crcByte_zero (a : Half) (b : Byte) : crcByte a b = crcByte (a ^^^ (b.setWidth 16 <<< 8)) 0#8 := by
  unfold crcByte; congr 8; simp

end Sys2Proof.Machine
end

