-- ==== Sys2Proof/Laws/Operands.lean ====
section
/-! SUPPORT. The operand tests as plain propositions (10_state.md R32, 43_sender.md R237), and the byte operand. -/

namespace Sys2Proof.Machine

/-- The legal ranges of INIT's operands (R32, R313). -/
theorem configLegal_iff (st tk ct : Word) (u : Nat) (rs ts : Half) :
    configLegal st tk ct u rs ts = true ↔
      (1 ≤ st.toNat ∧ st.toNat ≤ 2147483647) ∧ (1 ≤ tk.toNat ∧ tk.toNat ≤ 2147483647) ∧ ct.toNat ≤ 2147483647 ∧
        u ≤ 1 ∧ 1029 ≤ rs.toNat ∧ 128 ≤ ts.toNat := by
  unfold configLegal timeoutMax
  simp only [Bool.and_eq_true, decide_eq_true_eq]
  tauto

/-- What the byte operand of an operation can be: the bytes given, then as many free bytes as `len` still asks for; the count of
free answers moves only then (log 24). -/
theorem State.operand_spec (s : State) (data : List Byte) (len : Nat) :
    ∃ more draws, s.operand data len = (data ++ more, { s with env := { s.env with draws := draws } }) ∧
      more.length = len - data.length ∧ (len ≤ data.length → draws = s.env.draws) := by
  have hlen : ∀ n draw a, (missingBytes draw a n).length = n := by
    intro n
    induction n with
    | zero => intros; rfl
    | succ n ih => intro draw a; simp [missingBytes, ih]
  unfold State.operand
  split
  · exact ⟨[], s.env.draws, by simp, by simp; omega, fun _ => rfl⟩
  · exact ⟨_, _, rfl, hlen _ _ _, fun h => absurd h ‹_›⟩

/-- The four conditions of Admissible (R237). -/
theorem admissible_iff (limit : Nat) (name : List Byte) (size : Nat) (file : List Byte) :
    admissible limit name size file = true ↔
      0x00#8 ∉ name ∧ 1 ≤ size ∧ size < limit ∧ name.length + 1 + (decimal size).length ≤ 128 ∧
        size ≤ file.length := by
  unfold admissible
  simp only [Bool.and_eq_true, decide_eq_true_eq, Bool.not_eq_true', List.contains_eq_mem, decide_eq_false_iff_not]
  tauto

/-- The digits of R157. -/
theorem isDigit_iff (b : Byte) : isDigit b = true ↔ 0x30 ≤ b.toNat ∧ b.toNat ≤ 0x39 := by
  unfold isDigit
  simp only [Bool.and_eq_true, decide_eq_true_eq]

/-- What is written is text: the length of the header payload (R159). -/
theorem headerText_length (name : List Byte) (size : Nat) :
    (headerText name size).length = name.length + 1 + (decimal size).length := by
  simp [headerText]; omega

end Sys2Proof.Machine
end

