-- ==== Sys2Proof/Laws/PerInstr.lean ====
section
/-! SUPPORT. A property of every instruction as syntax, one lemma per constructor: the first byte of a unit gives its length
(30_encoding.md R95), and a host operation has no unit. -/

namespace Sys2Proof.Laws.EncodedLength

/-- A wire symbol's unit is not empty and as long as its first byte says; a host operation puts nothing on the wire. -/
def Statement (i : Sys2Proof.Instr) : Prop :=
  i.wellFormed = true →
    (i.isWire = true → ∃ b rest, Sys2Proof.wireBytes i = b :: rest ∧ (b :: rest).length = Sys2Proof.unitLength b) ∧
    (i.isWire = false → Sys2Proof.wireBytes i = [])

theorem soh (seq nseq : Sys2Proof.Byte) (payload : List Sys2Proof.Byte) (hi lo : Sys2Proof.Byte) :
    Statement (.soh seq nseq payload hi lo) := fun h =>
  ⟨fun _ => ⟨_, _, rfl, by
    have : payload.length = 128 := by simpa [Instr.wellFormed] using h
    have : unitLength symSOH = 133 := by decide
    simp [*]⟩, by simp [Instr.isWire]⟩

theorem stx (seq nseq : Sys2Proof.Byte) (payload : List Sys2Proof.Byte) (hi lo : Sys2Proof.Byte) :
    Statement (.stx seq nseq payload hi lo) := fun h =>
  ⟨fun _ => ⟨_, _, rfl, by
    have : payload.length = 1024 := by simpa [Instr.wellFormed] using h
    have : unitLength symSTX = 1029 := by decide
    simp [*]⟩, by simp [Instr.isWire]⟩

theorem eot : Statement .eot := fun _ => ⟨fun _ => ⟨_, _, rfl, by decide⟩, by simp [Instr.isWire]⟩
theorem ack : Statement .ack := fun _ => ⟨fun _ => ⟨_, _, rfl, by decide⟩, by simp [Instr.isWire]⟩
theorem nak : Statement .nak := fun _ => ⟨fun _ => ⟨_, _, rfl, by decide⟩, by simp [Instr.isWire]⟩
theorem can : Statement .can := fun _ => ⟨fun _ => ⟨_, _, rfl, by decide⟩, by simp [Instr.isWire]⟩
theorem c : Statement .c := fun _ => ⟨fun _ => ⟨_, _, rfl, by decide⟩, by simp [Instr.isWire]⟩

theorem init (st tk ct : Sys2Proof.Word) (u : Nat) (rs ts : Sys2Proof.Half) : Statement (.init st tk ct u rs ts) :=
  fun _ => ⟨by simp [Instr.isWire], fun _ => rfl⟩
theorem rxStep : Statement .rxStep := fun _ => ⟨by simp [Instr.isWire], fun _ => rfl⟩
theorem sendFile (name : List Sys2Proof.Byte) (size : Nat) (file : List Sys2Proof.Byte) :
    Statement (.sendFile name size file) := fun _ => ⟨by simp [Instr.isWire], fun _ => rfl⟩
theorem crc16 (seed : Sys2Proof.Half) (data : List Sys2Proof.Byte) (len : Nat) : Statement (.crc16 seed data len) :=
  fun _ => ⟨by simp [Instr.isWire], fun _ => rfl⟩
theorem validate (buf : List Sys2Proof.Byte) (len : Nat) (exp : Sys2Proof.Byte) : Statement (.validate buf len exp) :=
  fun _ => ⟨by simp [Instr.isWire], fun _ => rfl⟩
theorem encode (header seq fill : Sys2Proof.Byte) (payload : List Sys2Proof.Byte) (len : Nat) :
    Statement (.encode header seq fill payload len) := fun _ => ⟨by simp [Instr.isWire], fun _ => rfl⟩

end Sys2Proof.Laws.EncodedLength
end

