-- ==== Sys2Proof/Laws/Rows.lean ====
section
/-! SUPPORT. The transition table of RX_STATE as one inductive relation, and the proof that RX_STEP takes one of its rows
(42_receiver.md R171). -/

namespace Sys2Proof.Machine

/-- The rows of R171 that act on a candidate: the registers, the environment and the result they lead to. -/
inductive Row (s : State) : Rx → Env → Result → Prop where
  /-- T7, T14, T19, T25. -/
  | can : Row s { s.rx.cleared with reason := .remoteTermination, state := .recvTerm } s.env (.status .noEvent)
  /-- T8, T15, T20, T26. -/
  | framing : Row s (s.rx.afterNak (nakReason s.par s.rx.state)) (s.env.put 0x15#8) (.status .noEvent)
  /-- T4. -/
  | unparsable (hs : s.rx.state = .recvHeader) (hp : parseHeader s.par.filesizeLimit s.payload = none) :
      Row s { s.rx.cleared with reason := .headerParseError, state := .recvErr } s.env (.status .noEvent)
  /-- T5. -/
  | headerRejected (name : List Byte) (size : Nat) (hs : s.rx.state = .recvHeader)
      (hp : parseHeader s.par.filesizeLimit s.payload = some (name, size)) (ha : s.env.answer.1 = false) :
      Row s { s.rx.cleared with reason := .headerParseError, state := .recvErr }
        (s.env.answer.2.record (.onHeader name size false)) (.status .noEvent)
  /-- T6. -/
  | headerAccepted (name : List Byte) (size : Nat) (hs : s.rx.state = .recvHeader)
      (hp : parseHeader s.par.filesizeLimit s.payload = some (name, size)) (ha : s.env.answer.1 = true) :
      Row s { s.rx.cleared with state := .recvData, seq := 1#8, active := true, retry := 0#8, last := s.rx.now }
        (((s.env.answer.2.record (.onHeader name size true)).put 0x06#8).put 0x43#8) (.status .noEvent)
  /-- T11. -/
  | dataAccepted (hs : s.rx.state = .recvData) (ha : s.env.answer.1 = true) :
      Row s { s.rx.cleared with seq := s.rx.seq + 1#8, retry := 0#8, last := s.rx.now }
        ((s.env.answer.2.record (.onPacket s.payload s.rx.pktSize.toNat true)).put 0x06#8) (.status .noEvent)
  /-- T12. -/
  | dataRejected (hs : s.rx.state = .recvData) (ha : s.env.answer.1 = false) :
      Row s { s.rx.cleared with reason := .packetProcessingError, state := .recvErr }
        (s.env.answer.2.record (.onPacket s.payload s.rx.pktSize.toNat false)) (.status .noEvent)
  /-- T13. -/
  | firstEot (hs : s.rx.state = .recvData) :
      Row s { s.rx.cleared with state := .recvEotConfirm, retry := 0#8, last := s.rx.now } (s.env.put 0x15#8)
        (.status .noEvent)
  /-- T18. -/
  | secondEot (hs : s.rx.state = .recvEotConfirm) :
      Row s { s.rx.cleared with state := .recvFinish, seq := 0#8, retry := 0#8, last := s.rx.now }
        ((s.env.put 0x06#8).put 0x43#8) (.status .noEvent)
  /-- T23. -/
  | closed (hs : s.rx.state = .recvFinish) (h0 : s.rxbuf.read 3 = 0x00#8) :
      Row s { s.rx.cleared with state := .idle, active := false } ((s.env.put 0x06#8).onFinish .success) (.status .success)
  /-- T24. -/
  | moreFiles (hs : s.rx.state = .recvFinish) (h0 : s.rxbuf.read 3 ≠ 0x00#8) :
      Row s { s.rx.cleared with reason := .remoteTermination, state := .recvTerm } s.env (.status .noEvent)

/-- The state after a row: every candidate's judgement ends with AsmReset (R179). -/
def State.afterRow (s : State) (acc : Half) (rx : Rx) (env : Env) (r : Result) : State :=
  { s with crcAcc := acc, rx := rx, rxbuf := s.rxbuf.zeroBelow 1029, env := env, result := r }

/-- A judged candidate takes one row. -/
theorem State.judge_row (s : State) (hr : s.rx.state.receiving = true) :
    ∃ acc rx env r, Row s rx env r ∧ s.judge = .next (s.afterRow acc rx env r) := by
  obtain ⟨⟨v, acc⟩, hv⟩ : ∃ p, validate (s.rxbuf.readRun 0 s.rx.fill.toNat) s.rx.fill.toNat s.rx.seq s.crcAcc = p :=
    ⟨_, rfl⟩
  rw [State.judge_eq s hr hv]
  refine ⟨acc, ?_⟩
  split
  · exact ⟨_, _, _, .can, rfl⟩
  have hs : ({ s with crcAcc := acc } : State).rx.state.receiving = true := hr
  rcases State.act_cases { s with crcAcc := acc } v hs with ⟨rfl, h | h⟩ | ⟨_, h, e⟩ | ⟨_, h, e⟩ | ⟨_, h, e⟩ | e
  · refine ⟨_, _, _, .firstEot h, ?_⟩
    unfold State.act; rw [h]; exact State.dataAction_eot _
  · refine ⟨_, _, _, .secondEot h, ?_⟩
    unfold State.act; rw [h]; exact State.eotAction_eot _
  · rw [e]
    rcases State.headerFrame_cases { s with crcAcc := acc } with ⟨hp, e'⟩ | ⟨name, size, hp, ⟨ha, e'⟩ | ⟨ha, e'⟩⟩
    · exact ⟨_, _, _, .unparsable h hp, e'⟩
    · exact ⟨_, _, _, .headerRejected name size h hp ha, e'⟩
    · exact ⟨_, _, _, .headerAccepted name size h hp ha, e'⟩
  · rw [e]
    rcases State.dataFrame_cases { s with crcAcc := acc } with ⟨ha, e'⟩ | ⟨ha, e'⟩
    · exact ⟨_, _, _, .dataAccepted h ha, e'⟩
    · exact ⟨_, _, _, .dataRejected h ha, e'⟩
  · rw [e]
    rcases State.closingFrame_cases { s with crcAcc := acc } with ⟨h0, e'⟩ | ⟨h0, e'⟩
    · exact ⟨_, _, _, .closed h h0, e'⟩
    · exact ⟨_, _, _, .moreFiles h h0, e'⟩
  · rw [e, State.framingError_eq]
    exact ⟨_, _, _, .framing, rfl⟩

/-- What the assembler's one action changes at most, and the one link read it makes (R172, R175). -/
theorem State.assemble_frame {s u : State} {done : Bool} (h : s.assemble = .ok (done, u)) :
    ∃ asm fill need pktSize call,
      u = { s with env := u.env, rxbuf := u.rxbuf
                   rx := { s.rx with asm := asm, fill := fill, need := need, pktSize := pktSize } } ∧
      u.env.trace = s.env.trace ++ [call] ∧ isLinkRead call = true ∧ u.env.linkOut = s.env.linkOut ∧
      u.env.requests = s.env.requests := by
  unfold State.assemble at h
  cases ha : s.rx.asm with
  | awaitingSync =>
    rw [ha] at h
    unfold State.syncAction at h
    dsimp only at h
    split at h
    · cases h
      exact ⟨_, _, _, _, _, rfl, Env.get_trace _ _, rfl, Env.get_linkOut _ _, Env.get_requests _ _⟩
    rcases State.writeRxbuf_cases { s with env := (s.env.get s.cfg.charTimeout).2 } 0 [‹Byte›] with ⟨_, e⟩ | ⟨_, e⟩
    · rw [e] at h
      dsimp only at h
      split at h <;> cases h <;>
        exact ⟨_, _, _, _, _, rfl, Env.get_trace _ _, rfl, Env.get_linkOut _ _, Env.get_requests _ _⟩
    · rw [e] at h; cases h
  | awaitingBody =>
    rw [ha] at h
    unfold State.bodyAction at h
    dsimp only at h
    rcases State.writeRxbuf_cases { s with env := (s.env.recv (s.rx.need.toNat - s.rx.fill.toNat)).2 } s.rx.fill.toNat
      (s.env.recv (s.rx.need.toNat - s.rx.fill.toNat)).1 with ⟨_, e⟩ | ⟨_, e⟩
    · rw [e] at h
      cases h
      exact ⟨_, _, _, _, _, rfl, Env.recv_trace _ _, rfl, Env.recv_linkOut _ _, Env.recv_requests _ _⟩
    · rw [e] at h; cases h

/-- What an admitted RX_STEP can answer: the Idle action, the terminal action, or a poll that faults, judges a candidate, acts on
the deadline, or ends without an event (R170, R171). -/
theorem State.rxStep_cases (s : State) :
    (s.rx.state = .idle ∧ s.rxStep = s.latchTick.idleAction) ∨
    ((s.rx.state = .recvErr ∨ s.rx.state = .recvTerm) ∧ s.rxStep = s.latchTick.terminalAction) ∨
    (s.rx.state.receiving = true ∧
      ((∃ f, s.latchTick.assemble = .error f ∧ s.rxStep = .fault f) ∨
       (∃ u, s.latchTick.assemble = .ok (true, u) ∧ s.rxStep = u.judge) ∨
       (∃ u, s.latchTick.assemble = .ok (false, u) ∧ u.expired = true ∧ s.rxStep = u.deadlineAction) ∨
       (∃ u, s.latchTick.assemble = .ok (false, u) ∧ u.expired = false ∧
          s.rxStep = .next { u with result := .status .noEvent }))) := by
  by_cases hr : s.rx.state.receiving = true
  · refine .inr (.inr ⟨hr, ?_⟩)
    rw [State.rxStep_receiving hr]
    cases ha : s.latchTick.assemble with
    | error f => exact .inl ⟨f, rfl, by unfold State.poll; rw [ha]⟩
    | ok p =>
      obtain ⟨done, u⟩ := p
      cases done with
      | true => exact .inr (.inl ⟨u, rfl, State.poll_candidate ha⟩)
      | false =>
        rw [State.poll_none ha]
        cases hx : u.expired with
        | true => exact .inr (.inr (.inl ⟨u, rfl, hx, rfl⟩))
        | false => exact .inr (.inr (.inr ⟨u, rfl, hx, rfl⟩))
  · unfold State.rxStep
    cases h : s.rx.state <;> simp [h, RxState.receiving] at hr ⊢

end Sys2Proof.Machine
end

