-- ==== Sys2Proof/Laws/Sender.lean ====
section
/-! SUPPORT. What the sender's operations do, each said once (43_sender.md). -/

namespace Sys2Proof.Machine

/-! ### One turn of WaitByte's loop (R232) -/

/-- The time test as one record update: the wait lasts while fewer than CFG_ACK_TIMEOUT ticks have passed since TX_T0. -/
theorem State.txTimeTest_eq {s : State} (h : s.tx.waiting = true) :
    s.txTimeTest = { s with
      env := s.env.readTick.2
      tx := { s.tx with
        waiting := decide (¬ s.cfg.ackTimeout.toNat ≤ (s.env.readTick.1 - s.tx.t0).toNat) } } := by
  unfold State.txTimeTest elapsed State.txRetry
  generalize (s.env.readTick.1 - s.tx.t0).toNat = d
  by_cases ht : s.cfg.ackTimeout.toNat ≤ d
  · simp only [ht, decide_true, if_true, not_true_eq_false, decide_false]
  · simp only [ht, decide_false, Bool.false_eq_true, if_false, not_false_eq_true, decide_true]
    rw [← h]

/-- The time test changes the environment and the waiting bit only. -/
theorem State.txTimeTest_frame (s : State) :
    ∃ w, s.txTimeTest = { s with env := s.env.readTick.2, tx := { s.tx with waiting := w } } := by
  unfold State.txTimeTest State.txRetry
  dsimp only
  split
  · exact ⟨false, rfl⟩
  · exact ⟨s.tx.waiting, rfl⟩

/-- What a byte read in a wait can do: CAN ends the run (R251), the awaited byte completes the step, another accepted byte ends the
attempt (R234, R247), any other byte is dropped and the time is tested (R232). -/
theorem State.txByte_cases (s : State) (b : Byte) :
    (b = 0x18#8 ∧ s.txByte b = .next (s.txEnd false)) ∨
    (b ≠ 0x18#8 ∧ b ∈ txAccept s.tx.phase ∧ b = txGoal s.tx.phase ∧ s.txByte b = s.txAdvance) ∨
    (b ≠ 0x18#8 ∧ b ∈ txAccept s.tx.phase ∧ b ≠ txGoal s.tx.phase ∧ s.txByte b = .next s.txRetry) ∨
    (b ≠ 0x18#8 ∧ b ∉ txAccept s.tx.phase ∧ s.txByte b = .next s.txTimeTest) := by
  unfold State.txByte symCAN
  by_cases h : b = 0x18#8
  · simp [h]
  · by_cases h2 : b ∈ txAccept s.tx.phase
    · by_cases h3 : b = txGoal s.tx.phase
      · have h2' : txGoal s.tx.phase ∈ txAccept s.tx.phase := h3 ▸ h2
        have h' : txGoal s.tx.phase ≠ 0x18#8 := h3 ▸ h
        simp [h', h2', h3]
      · simp [h, h2, h3]
    · simp [h, h2]

/-! ### The next step of the procedure (R230) -/

/-- The data phase goes on exactly while file bytes remain (R243). -/
theorem State.txNextData_cases (s : State) :
    (s.tx.off.toNat < s.tx.size ∧ s.txNextData = s.txEnter .data) ∨
    (s.tx.size ≤ s.tx.off.toNat ∧ s.txNextData = s.txEnter .eotA) := by
  unfold State.txNextData
  split
  · exact .inl ⟨‹_›, rfl⟩
  · exact .inr ⟨by omega, rfl⟩

/-- The size choice of R242. -/
theorem packetChoice_cases (use1k : Bool) (rem : Nat) :
    (use1k = true ∧ 1024 ≤ rem ∧ packetChoice use1k rem = (0x02#8, 1024)) ∨
    (¬ (use1k = true ∧ 1024 ≤ rem) ∧ packetChoice use1k rem = (0x01#8, min rem 128)) := by
  unfold packetChoice symSTX symSOH
  by_cases h : use1k = true ∧ 1024 ≤ rem
  · exact .inl ⟨h.1, h.2, by simp [h.1, h.2]⟩
  · refine .inr ⟨h, if_neg ?_⟩
    simpa using h

/-- A packet never asks for more than remains, and for at least one byte while any remain (R243). -/
theorem packetChoice_le (use1k : Bool) (rem : Nat) : (packetChoice use1k rem).2 ≤ rem := by
  rcases packetChoice_cases use1k rem with ⟨_, h, h'⟩ | ⟨_, h'⟩ <;> rw [h'] <;> dsimp only <;> omega

theorem packetChoice_pos (use1k : Bool) {rem : Nat} (h : 1 ≤ rem) : 1 ≤ (packetChoice use1k rem).2 := by
  rcases packetChoice_cases use1k rem with ⟨_, _, h'⟩ | ⟨_, h'⟩ <;> rw [h'] <;> dsimp only <;> omega

/-- BuildHeader, when the text fits TXBUF (41_codec.md R159). -/
theorem State.txBuildHeader_of_le {s : State} (h : (headerText s.tx.name s.tx.size).length ≤ s.cfg.txbufSize.toNat) :
    s.txBuildHeader =
      .next ({ s with txbuf := s.txbuf.write 0 (headerText s.tx.name s.tx.size) }.txEnter .header) := if_pos h

/-! ### The start of an attempt -/

/-- The attempt counter of the attempt that begins. -/
def State.txCount (s : State) : State := { s with tx := { s.tx with attempt := s.tx.attempt + 1#8 } }

/-- What the start of an attempt can do: fail with the budget used up (R250), or count the attempt, send its unit and arm the
wait. -/
theorem State.txBegin_cases (s : State) (hp : s.tx.phase ≠ .txIdle) :
    (s.par.txRetryLimit.toNat ≤ s.tx.attempt.toNat ∧ s.txBegin = .next (s.txEnd false)) ∨
    (s.tx.attempt.toNat < s.par.txRetryLimit.toNat ∧
      ((s.tx.phase = .waitC1 ∨ s.tx.phase = .waitC2 ∨ s.tx.phase = .waitC3) ∧ s.txBegin = .next s.txCount.txArm ∨
       (s.tx.phase = .eotA ∨ s.tx.phase = .eotB) ∧ s.txBegin = .next (s.txCount.put 0x04#8).txArm ∨
       s.tx.phase = .header ∧
         s.txBegin = .next (s.txCount.sendFramed 0x01#8 0#8 0x00#8 128 (s.txbuf.readRun 0 s.headerLen)) ∨
       s.tx.phase = .closing ∧ s.txBegin = .next (s.txCount.sendFramed 0x01#8 0#8 0x00#8 128 []) ∨
       s.tx.phase = .data ∧ s.tx.off.toNat + s.txPacket.2 ≤ s.tx.file.length ∧
         s.txBegin = .next (s.txCount.sendFramed s.txPacket.1 s.tx.seq 0x1A#8 ((payloadSize s.txPacket.1).getD 0)
           ((s.tx.file.drop s.tx.off.toNat).take s.txPacket.2)) ∨
       s.tx.phase = .data ∧ s.tx.file.length < s.tx.off.toNat + s.txPacket.2 ∧ s.txBegin = .fault .fileRange)) := by
  obtain ⟨par, cfg, inited, rx, ⟨phase, seq, off, attempt, t0, waiting, name, size, file⟩, crcAcc, rxbuf, txbuf, env, result⟩ := s
  by_cases hl : par.txRetryLimit.toNat ≤ attempt.toNat
  · refine .inl ⟨hl, ?_⟩
    cases phase <;> first | exact absurd rfl hp | (unfold State.txBegin; simp [hl])
  · refine .inr ⟨by simpa using hl, ?_⟩
    cases phase with
    | txIdle => exact absurd rfl hp
    | waitC1 => exact .inl ⟨.inl rfl, by unfold State.txBegin; simp [hl]; rfl⟩
    | waitC2 => exact .inl ⟨.inr (.inl rfl), by unfold State.txBegin; simp [hl]; rfl⟩
    | waitC3 => exact .inl ⟨.inr (.inr rfl), by unfold State.txBegin; simp [hl]; rfl⟩
    | eotA => exact .inr (.inl ⟨.inl rfl, by unfold State.txBegin; simp [hl]; rfl⟩)
    | eotB => exact .inr (.inl ⟨.inr rfl, by unfold State.txBegin; simp [hl]; rfl⟩)
    | header => exact .inr (.inr (.inl ⟨rfl, by unfold State.txBegin; simp [hl]; rfl⟩))
    | closing => exact .inr (.inr (.inr (.inl ⟨rfl, by unfold State.txBegin; simp [hl]; rfl⟩)))
    | data =>
      refine .inr (.inr (.inr (.inr ?_)))
      by_cases hf : off.toNat + (packetChoice cfg.use1k (size - off.toNat)).2 ≤ file.length
      · exact .inl ⟨rfl, hf, by unfold State.txBegin; simp only [State.txPacket, hl, hf]; rfl⟩
      · exact .inr ⟨rfl, by simpa [State.txPacket] using hf, by unfold State.txBegin; simp [State.txPacket, hl, hf]⟩

/-- One transmission of a frame as one record update: the frame, one flush, the start of the wait (R234, R241). -/
theorem State.sendFramed_eq (s : State) (header seq fill : Byte) (n : Nat) (payload : List Byte) :
    s.sendFramed header seq fill n payload = { s with
      crcAcc := trailerCrc n fill payload
      tx := { s.tx with t0 := s.env.readTick.1, waiting := true }
      env := (s.env.puts (encodedFrame header seq fill n payload)).flush.readTick.2 } := by
  unfold State.sendFramed State.txArm
  simp only [State.emitFrame_env, Env.readTick_flush, Env.readTick_puts]
  rfl

end Sys2Proof.Machine
end

