-- ==== Sys2Proof/Laws/Step.lean ====
section
/-! SUPPORT. What a step can do, by who is at work: the host's next request, one turn of a sender's wait, or the start of an
attempt (Machine/Fetch.lean). -/

namespace Sys2Proof.Machine

/-- The state after a request has been taken off the host's queue. -/
def State.takeRequest (s : State) (rest : List Command) : State :=
  { s with env := { s.env with requests := rest } }

/-- A step outside a run (R103). -/
theorem step_request (s : State) (h : s.tx.phase = .txIdle) :
    (s.env.requests = [] ∧ step s = .next s) ∨
    (∃ q rest, s.env.requests = q :: rest ∧
      ((∃ i, decodeCommand q = .ok i ∧ step s = exec i (s.takeRequest rest)) ∨
       (decodeCommand q = .error .noOperation ∧ step s = .next (s.takeRequest rest)) ∨
       ∃ r, decodeCommand q = .error r ∧ r ≠ .noOperation ∧ step s = .refused .unassignedCommand)) := by
  unfold step State.fetch State.fetchRequest
  simp only [h, if_true]
  cases hr : s.env.requests with
  | nil => exact .inl ⟨rfl, rfl⟩
  | cons q rest =>
    refine .inr ⟨q, rest, rfl, ?_⟩
    cases hd : decodeCommand q with
    | ok i => exact .inl ⟨i, rfl, by simp [hd, State.takeRequest]⟩
    | error r =>
      cases r with
      | noOperation => exact .inr (.inl ⟨rfl, by simp [hd, State.takeRequest]⟩)
      | _ => exact .inr (.inr ⟨_, rfl, by simp, by simp [hd]⟩)

/-- A step at the start of an attempt. -/
theorem step_begin (s : State) (h : s.tx.phase ≠ .txIdle) (hw : s.tx.waiting = false) : step s = s.txBegin := by
  unfold step State.fetch
  simp [h, hw]

/-- The one-byte symbols: in a sender's wait each is examined as the byte it is (R92, R232). -/
theorem exec_symbol_awaits {s : State} {p : TxPhase} (h : awaits s p) {b : Byte} {i : Instr} {more : List Byte}
    (hd : decodeWire [b] = .ok (i, more)) : exec i s = s.txByte b := by
  have key : ∀ b', s.receive b' [] (s.loadControl b') = s.txByte b' := by
    intro b'
    rw [State.receive_awaits h]
    rfl
  unfold decodeWire at hd
  dsimp only at hd
  split at hd
  · simp [decodeFrame] at hd
  split at hd
  · simp [decodeFrame] at hd
  split at hd
  · rename_i hb; simp only [Except.ok.injEq, Prod.mk.injEq] at hd; rw [← hd.1, hb]; exact key _
  split at hd
  · rename_i hb; simp only [Except.ok.injEq, Prod.mk.injEq] at hd; rw [← hd.1, hb]; exact key _
  split at hd
  · rename_i hb; simp only [Except.ok.injEq, Prod.mk.injEq] at hd; rw [← hd.1, hb]; exact key _
  split at hd
  · rename_i hb; simp only [Except.ok.injEq, Prod.mk.injEq] at hd; rw [← hd.1, hb]; exact key _
  split at hd
  · rename_i hb; simp only [Except.ok.injEq, Prod.mk.injEq] at hd; rw [← hd.1, hb]; exact key _
  · simp at hd

/-- A step inside a wait: LinkGet, then the time test on EOF, or the byte it returned (R232). -/
theorem step_wait (s : State) (h : s.tx.phase ≠ .txIdle) (hw : s.tx.waiting = true) :
    step s = match (s.env.get s.cfg.charTimeout).1 with
      | none => .next { s with env := (s.env.get s.cfg.charTimeout).2 }.txTimeTest
      | some b => { s with env := (s.env.get s.cfg.charTimeout).2 }.txByte b := by
  unfold step State.fetch State.fetchWait
  simp only [h, hw, if_false, if_true]
  cases hg : (s.env.get s.cfg.charTimeout).1 with
  | none => rfl
  | some b =>
    dsimp only
    cases hd : decodeWire [b] with
    | error r => rfl
    | ok r =>
      dsimp only
      exact exec_symbol_awaits (s := { s with env := (s.env.get s.cfg.charTimeout).2 }) (p := s.tx.phase)
        ⟨rfl, h, hw⟩ (more := r.2) hd

/-- A request decodes to a host operation, and to INIT only from code 001 (R103). -/
theorem decodeCommand_host {q : Command} {i : Instr} (h : decodeCommand q = .ok i) :
    i.isWire = false ∧ ((∃ a b c d e f, i = .init a b c d e f) → q.code = 0b001#3) := by
  unfold decodeCommand at h
  split at h
  · cases h; exact ⟨rfl, fun _ => ‹_›⟩
  split at h
  · cases h; exact ⟨rfl, by simp⟩
  split at h
  · cases h; exact ⟨rfl, by simp⟩
  split at h
  · cases h; exact ⟨rfl, by simp⟩
  split at h
  · cases h; exact ⟨rfl, by simp⟩
  split at h
  · cases h; exact ⟨rfl, by simp⟩
  split at h <;> cases h

/-- A run of one step more. -/
theorem run_succ {s t : State} (k : Nat) (h : step s = .next t) :
    Sys2Proof.core.run (k + 1) s = Sys2Proof.core.run k t := by
  have general : ∀ (M : Host.Core) {s t : M.State}, M.step s = .next t → M.run (k + 1) s = M.run k t := by
    intro M s t h; simp only [Host.Core.run, h]
  exact general Sys2Proof.core h

end Sys2Proof.Machine
end

