-- ==== Sys2Proof/Laws/Sound.lean ====
section
/-! SUPPORT. What the parts of a step do to the invariant of Safety.lean: the assembler, the rows of R171,
  the attempts and waits
of a run, INIT. -/

namespace Sys2Proof.Machine

/-- The invariant without its two clauses about the assembler and RXBUF: what holds in the middle of a poll. -/
structure SoundRegs (s : State) : Prop where
  par : s.par.legal
  rxbuf : s.rxbuf.wf
  txbuf : s.txbuf.wf
  cfg : s.inited = true → cfgSound s.cfg
  started : s.rx.state ≠ .idle → s.inited = true
  retry : s.rx.retry.toNat ≤ 3
  budget : s.rx.state.receiving = true → s.rx.retry.toNat < 3
  seqZero : s.rx.state = .recvHeader ∨ s.rx.state = .recvFinish → s.rx.seq = 0#8
  active : s.rx.state = .recvData ∨ s.rx.state = .recvEotConfirm ∨ s.rx.state = .recvFinish → s.rx.active = true
  inactive : s.rx.state = .idle ∨ s.rx.state = .recvHeader → s.rx.active = false
  reasonErr : s.rx.state = .recvErr → s.rx.reason ≠ .success
  reasonTerm : s.rx.state = .recvTerm → s.rx.reason = .remoteTermination
  run : s.tx.phase = .txIdle ∧ s.tx.waiting = false ∨ s.tx.phase ≠ .txIdle ∧ runSound s

/-- The middle of a poll asks for less. -/
theorem Sound.regs {s} (h : Sound s) : SoundRegs s :=
    ⟨h.par, h.rxbuf, h.txbuf, h.cfg, h.started, h.retry, h.budget, h.seqZero, h.active, h.inactive, h.reasonErr,
    h.reasonTerm, h.run⟩

/-- The assembler clauses put back. -/
theorem SoundRegs.sound {s} (h : SoundRegs s) (ha : asmSound s)
    (hz : s.rx.state.receiving = true → ∀ a, s.rx.fill.toNat ≤ a → a < 1029 → s.rxbuf.read a = 0#8) : Sound s :=
 ⟨h.par, h.rxbuf, h.txbuf, h.cfg, h.started, ha, hz, h.retry, h.budget, h.seqZero, h.active, h.inactive, h.reasonErr,
   h.reasonTerm, h.run⟩

/-- The environment, CRC_ACC and the result port are free. -/
theorem Sound.env {s} (h : Sound s) (e : Env) (a : Half) (r : Result) :
    Sound { s with env := e, crcAcc := a, result := r } :=
 ⟨h.par, h.rxbuf, h.txbuf, h.cfg, h.started, h.asm, h.zeros, h.retry, h.budget, h.seqZero, h.active, h.inactive,
   h.reasonErr, h.reasonTerm, h.run⟩

/-- The Tick() of an RX_STEP is free. -/
theorem Sound.latch {s} (h : Sound s) : Sound s.latchTick :=
 ⟨h.par, h.rxbuf, h.txbuf, h.cfg, h.started, h.asm, h.zeros, h.retry, h.budget, h.seqZero, h.active, h.inactive,
   h.reasonErr, h.reasonTerm, h.run⟩

/-- A session outside Idle is not sending (R320). -/
theorem SoundRegs.txIdle {s} (h : SoundRegs s) (hn : s.rx.state ≠ .idle) : s.tx.phase = .txIdle ∧ s.tx.waiting =
    false := by
  rcases h.run with h | ⟨_, h⟩
  · exact h
  · exact absurd h.2.1 hn

/-- The buffers of an initialised session hold what the rules use (R32). -/
theorem SoundRegs.buffers {s} (h : SoundRegs s) (hi : s.inited = true) : 1029 ≤ s.cfg.rxbufSize.toNat ∧
    128 ≤ s.cfg.txbufSize.toNat := by
  have := h.cfg hi
  simp [cfgSound, configLegal] at this; omega

/-- One assembler action: no fault, and soundness until a candidate is complete (R175 to R177). -/
theorem State.assemble_sound {s} (h : Sound s) (hr : s.rx.state.receiving = true) : ∃ done u, s.assemble =
    .ok (done, u) ∧ SoundRegs u ∧ u.rx.state = s.rx.state ∧ (done = false → Sound u) := by
  have hni : s.rx.state ≠ .idle := by intro h; rw [h] at hr; simp [RxState.receiving] at hr
  obtain ⟨hb, _⟩ := SoundRegs.buffers h.regs (h.started hni)
  unfold State.assemble
  rcases h.asm with ⟨h1, h2, h3, h4⟩ | ⟨h1, h2, h3, h4⟩
  · rw [h1]; dsimp only
    rcases s.syncAction_cases (by omega) with ⟨_, e⟩ | ⟨b, n, _, hp, e⟩ | ⟨b, _, hp, e⟩ <;> rw [e]
    · exact ⟨_, _, rfl, (h.env _ _ _).regs, rfl, fun _ => h.env _ _ _⟩
    · have hpre : SoundRegs ((s.tookSync b).openFrame n) :=
        ⟨h.par, Memory.write_wf h.rxbuf _ _, h.txbuf, h.cfg, h.started, h.retry, h.budget, h.seqZero, h.active,
        h.inactive, h.reasonErr, h.reasonTerm, h.run⟩
      have r0 : ((s.tookSync b).openFrame n).rxbuf.read 0 = b := by
        show (s.rxbuf.write 0 [b]).read 0 = b
        rw [Memory.read_write]; simp
      refine ⟨_, _, rfl, hpre, rfl, fun _ => hpre.sound (.inr ?_) ?_⟩
      · rcases payloadSize_cases b with ⟨q, q'⟩ | ⟨q, q'⟩ | ⟨_, _, q'⟩ <;> rw [q'] at hp <;> cases hp
        · exact ⟨rfl, by show 1 ≤ (1#11).toNat; decide,
            by show (1#11).toNat < (BitVec.ofNat 11 (3+128+2)).toNat; decide, .inl ⟨rfl, rfl, r0.trans q⟩⟩
        · exact ⟨rfl, by show 1 ≤ (1#11).toNat; decide,
            by show (1#11).toNat < (BitVec.ofNat 11 (3+1024+2)).toNat; decide, .inr ⟨rfl, rfl, r0.trans q⟩⟩
      · intro _ a ha ha'
        have ha1 : 1 ≤ a := ha
        show (s.rxbuf.write 0 [b]).read a = 0#8
        rw [Memory.read_write, if_neg (by simp; omega)]
        exact h.zeros hr a (by rw [h2]; simp) ha'
    · refine ⟨_, _, rfl, ⟨h.par, Memory.write_wf h.rxbuf _ _, h.txbuf, h.cfg, h.started, h.retry, h.budget, h.seqZero,
        h.active, h.inactive, h.reasonErr, h.reasonTerm, h.run⟩, rfl, by simp⟩
  · rw [h1]; dsimp only
    have hn : s.rx.need.toNat ≤ 1029 := by rcases h4 with ⟨_, h, _⟩ | ⟨_, h, _⟩ <;> rw [h] <;> decide
    rw [s.bodyAction_eq h3.le (by omega)]
    have hpre : SoundRegs s.tookBody :=
      ⟨h.par, Memory.write_wf h.rxbuf _ _, h.txbuf, h.cfg, h.started, h.retry, h.budget, h.seqZero, h.active,
      h.inactive, h.reasonErr, h.reasonTerm, h.run⟩
    refine ⟨_, _, rfl, hpre, rfl, fun hd => hpre.sound (.inr ?_) ?_⟩
    · have hd' : ¬ s.tookBody.rx.fill = s.rx.need := of_decide_eq_false hd
      rw [State.tookBody_complete_iff s h3.le] at hd'
      have hl := s.env.recv_length (s.rx.need.toNat - s.rx.fill.toNat)
      have hf : s.tookBody.rx.fill.toNat =
        s.rx.fill.toNat + (s.env.recv (s.rx.need.toNat - s.rx.fill.toNat)).1.length := by
        show (s.rx.fill + BitVec.ofNat 11 _).toNat = _
        rw [BitVec.toNat_add, BitVec.toNat_ofNat]; omega
      have r0 : s.tookBody.rxbuf.read 0 = s.rxbuf.read 0 := by
        show (s.rxbuf.write s.rx.fill.toNat _).read 0 = _
        rw [Memory.read_write, if_neg (by omega)]
      refine ⟨h1, by rw [hf]; omega, ?_, ?_⟩
      · show s.tookBody.rx.fill.toNat < s.rx.need.toNat
        rw [hf]; omega
      · rw [r0]; exact h4
    · intro _ a ha ha'
      have hl := s.env.recv_length (s.rx.need.toNat - s.rx.fill.toNat)
      have hf : s.tookBody.rx.fill.toNat =
        s.rx.fill.toNat + (s.env.recv (s.rx.need.toNat - s.rx.fill.toNat)).1.length := by
        show (s.rx.fill + BitVec.ofNat 11 _).toNat = _
        rw [BitVec.toNat_add, BitVec.toNat_ofNat]; omega
      rw [hf] at ha
      show (s.rxbuf.write s.rx.fill.toNat _).read a = 0#8
      rw [Memory.read_write, if_neg (by omega)]
      exact h.zeros hr a (by omega) ha'

/-- AsmReset leaves the assembler sound (R78). -/
theorem asmSound_cleared {t : State} (h1 : t.rx.asm = .awaitingSync) (h2 : t.rx.fill = 0#11) (h3 : t.rx.need = 0#11)
    (h4 : t.rx.pktSize = 0#11) : asmSound t := .inl ⟨h1, h2, h3, h4⟩

/-- RXBUF reads 0x00 after AsmReset (R78). -/
theorem Memory.read_zeroBelow_of_lt (m : Memory) (a : Nat) (h : a < 1029) : (m.zeroBelow 1029).read a = 0#8 :=
    by rw [Memory.read_zeroBelow, if_pos h]

/-- No exhausted budget reports success (R183, U15, U16). -/
theorem nakReason_ne_success {s : State} (h : SoundRegs s) (st) : nakReason s.par st ≠ .success := by
  obtain ⟨_, _, h3, h4⟩ := h.par
  cases st <;> simp [nakReason]
  · exact h3
  · rcases h4 with h | h <;> rw [h] <;> decide
  · rcases h4 with h | h <;> rw [h] <;> decide

/-- Every row of R171 ends in a sound state. -/
theorem Row.sound {s : State} (h : SoundRegs s) (hr : s.rx.state.receiving = true) {rx env r} (hrow : Row s rx env r)
    (acc) : Sound (s.afterRow acc rx env r) := by
  have hni : s.rx.state ≠ .idle := by intro h; rw [h] at hr; simp [RxState.receiving] at hr
  have hin := h.started hni
  have hrun := h.txIdle hni
  have hb := h.budget hr
  have hbuf := Memory.zeroBelow_wf h.rxbuf 1029
  have hr1 : (s.rx.retry + 1#8).toNat = s.rx.retry.toNat + 1 := by rw [BitVec.toNat_add]; simp; omega
  have mk : rx.asm = .awaitingSync → rx.fill = 0#11 → rx.need = 0#11 → rx.pktSize = 0#11 → rx.retry.toNat ≤ 3 →
     (rx.state.receiving = true → rx.retry.toNat < 3) →
       (rx.state = .recvHeader ∨ rx.state = .recvFinish → rx.seq = 0#8) →
     (rx.state = .recvData ∨ rx.state = .recvEotConfirm ∨ rx.state = .recvFinish → rx.active = true) →
     (rx.state = .idle ∨ rx.state = .recvHeader → rx.active = false) → (rx.state = .recvErr → rx.reason ≠ .success) →
     (rx.state = .recvTerm → rx.reason = .remoteTermination) → Sound (s.afterRow acc rx env r) := by
    intro a1 a2 a3 a4 a5 a6 a7 a8 a9 a10 a11
    exact ⟨h.par, hbuf, h.txbuf, h.cfg, fun _ => hin, .inl ⟨a1, a2, a3, a4⟩,
      fun _ a _ ha => Memory.read_zeroBelow_of_lt _ _ ha, a5, a6, a7, a8, a9, a10, a11, .inl hrun⟩
  cases hrow with
  | can => exact mk rfl rfl rfl rfl h.retry (by simp [RxState.receiving]) (by simp) (by simp) (by simp) (by simp)
             (by simp)
  | framing =>
    rcases s.rx.afterNak_cases (nakReason s.par s.rx.state) with ⟨q, e⟩ | ⟨q, e⟩
    · rw [e] at mk ⊢
      exact mk rfl rfl rfl rfl (by dsimp only; omega) (by simp [RxState.receiving]) (by simp) (by simp) (by simp)
        (fun _ => nakReason_ne_success h _) (by simp)
    · rw [e] at mk ⊢
      exact mk rfl rfl rfl rfl (by dsimp only; omega)
        (fun _ => q) h.seqZero h.active h.inactive h.reasonErr h.reasonTerm
  | unparsable hs hp => exact mk rfl rfl rfl rfl h.retry (by simp [RxState.receiving]) (by simp) (by simp) (by simp)
                          (by simp) (by simp)
  | headerRejected n z hs hp ha => exact mk rfl rfl rfl rfl h.retry (by simp [RxState.receiving]) (by simp) (by simp)
                                     (by simp) (by simp) (by simp)
  | headerAccepted n z hs hp ha => exact mk rfl rfl rfl rfl (by simp) (by simp) (by simp) (by simp) (by simp)
                                     (by simp) (by simp)
  | dataAccepted hs ha => 
    have := h.active (.inl hs)
    exact mk rfl rfl rfl rfl (by simp) (by simp) (by simp [hs]) (by simp [this]) (by simp [hs]) (by simp [hs])
      (by simp [hs])
  | dataRejected hs ha => exact mk rfl rfl rfl rfl h.retry (by simp [RxState.receiving]) (by simp) (by simp) (by simp)
                            (by simp) (by simp)
  | firstEot hs =>
    have := h.active (.inl hs)
    exact mk rfl rfl rfl rfl (by simp) (by simp) (by simp) (by simp [this]) (by simp) (by simp) (by simp)
  | secondEot hs =>
    have := h.active (.inr (.inl hs))
    exact mk rfl rfl rfl rfl (by simp) (by simp) (by simp) (by simp [this]) (by simp) (by simp) (by simp)
  | closed hs h0 => exact mk rfl rfl rfl rfl h.retry (by simp [RxState.receiving]) (by simp) (by simp) (by simp)
                      (by simp) (by simp)
  | moreFiles hs h0 => exact mk rfl rfl rfl rfl h.retry (by simp [RxState.receiving]) (by simp) (by simp) (by simp)
                         (by simp) (by simp)

/-- RX_STEP keeps the invariant and never faults. -/
theorem State.rxStep_sound {s : State} (h : Sound s) (hin : s.inited = true) : ∃ t, s.rxStep = .next t ∧
    (s.tx.phase = .txIdle → Sound t) := by
  rcases s.rxStep_cases with ⟨h1, h2⟩ | ⟨h1, h2⟩ | ⟨hr, h2⟩
  · rw [h2, State.idleAction_eq]
    refine ⟨_, rfl, fun hp => ?_⟩
    have hrun : s.tx.phase = .txIdle ∧ s.tx.waiting = false :=
      by rcases h.run with h | ⟨h, _⟩; exact h; exact absurd hp h
    have ha := h.inactive (.inl h1)
    exact ⟨h.par, Memory.zeroBelow_wf h.rxbuf 1029, h.txbuf, h.cfg, fun _ => hin, .inl ⟨rfl, rfl, rfl, rfl⟩,
      fun _ a _ ha => Memory.read_zeroBelow_of_lt _ _ ha, by simp, by simp, by simp, by simp, fun _ => ha, by simp,
      by simp, .inl hrun⟩
  · rw [h2, State.terminalAction_eq]
    refine ⟨_, rfl, fun hp => ?_⟩
    have hrun : s.tx.phase = .txIdle ∧ s.tx.waiting = false :=
      by rcases h.run with h | ⟨h, _⟩; exact h; exact absurd hp h
    exact ⟨h.par, Memory.zeroBelow_wf h.rxbuf 1029, h.txbuf, h.cfg, fun _ => hin, .inl ⟨rfl, rfl, rfl, rfl⟩,
      fun _ a _ ha => Memory.read_zeroBelow_of_lt _ _ ha, h.retry, by simp [RxState.receiving], by simp, by simp,
      by simp, by simp, by simp, .inl hrun⟩
  · obtain ⟨done, u, ha, hpre, hst, hinv⟩ := State.assemble_sound h.latch hr
    have hru : u.rx.state.receiving = true := by rw [hst]; exact hr
    have hni : u.rx.state ≠ .idle := by intro h; rw [h] at hru; simp [RxState.receiving] at hru
    have hrun := hpre.txIdle hni
    rw [ha] at h2
    rcases h2 with ⟨f, h1, _⟩ | ⟨u', h1, h2⟩ | ⟨u', h1, _, h2⟩ | ⟨u', h1, _, h2⟩ <;> simp at h1
    · obtain ⟨_, rfl⟩ := h1
      obtain ⟨acc, rx, env, r, hrow, hj⟩ := u.judge_row hru
      rw [h2, hj]
      exact ⟨_, rfl, fun _ => Row.sound hpre hru hrow acc⟩
    · obtain ⟨hd, rfl⟩ := h1
      have hu := hinv hd
      rcases State.deadlineAction_cases u hru with ⟨k1, k2⟩ | ⟨k1, k2⟩
      · rw [h2, k2]
        refine ⟨_, rfl, fun _ => ?_⟩
        exact ⟨hu.par, hu.rxbuf, hu.txbuf, hu.cfg, fun _ => hu.started hni, hu.asm, by simp [RxState.receiving],
          hu.retry, by simp [RxState.receiving], by simp, by simp, fun _ => hu.inactive (.inr k1), by simp, by simp,
          .inl hrun⟩
      · rw [h2, k2, State.framingError_eq]
        refine ⟨_, rfl, fun _ => ?_⟩
        exact Row.sound hpre hru .framing u.crcAcc
    · obtain ⟨hd, rfl⟩ := h1
      rw [h2]
      exact ⟨_, rfl, fun _ => (hinv hd).env _ _ _⟩

/-- A change of the sender and TXBUF only. -/
theorem Sound.of_tx {s t : State} (h : Sound s) (hp : t.par = s.par) (hc : t.cfg = s.cfg) (hi : t.inited = s.inited)
    (hr : t.rx = s.rx) (hb : t.rxbuf = s.rxbuf)
   (ht : t.txbuf.wf) (hrun : t.tx.phase = .txIdle ∧ t.tx.waiting = false ∨ t.tx.phase ≠ .txIdle ∧ runSound t) :
     Sound t := by
  have ha : asmSound t := by
    have := h.asm
    unfold asmSound at this ⊢
    rw [hr, hb]; exact this
  have cfg := h.cfg
  have started := h.started
  have zeros := h.zeros
  have retry := h.retry
  have budget := h.budget
  have seqZero := h.seqZero
  have active := h.active
  have inactive := h.inactive
  have err := h.reasonErr
  have term := h.reasonTerm
  simp only [← hr, ← hc, ← hi, ← hb] at cfg started zeros retry budget seqZero active inactive err term
  exact ⟨hp ▸ h.par, hb ▸ h.rxbuf, ht, cfg, started, ha, zeros, retry, budget, seqZero, active, inactive, err, term,
    hrun⟩

/-- What a run in progress has. -/
theorem Sound.runOf {s} (h : Sound s) (hp : s.tx.phase ≠ .txIdle) : runSound s := by
  rcases h.run with ⟨h, _⟩ | ⟨_, h⟩
  · exact absurd h hp
  · exact h

/-- An attempt counted and its wait armed (R241). -/
theorem Sound.of_attempt {s : State} (h : Sound s) (hp : s.tx.phase ≠ .txIdle)
    (ha : s.tx.attempt.toNat < s.par.txRetryLimit.toNat) {t : State}
   (h1 : t.par = s.par) (hc : t.cfg = s.cfg) (hi : t.inited = s.inited) (hr : t.rx = s.rx) (hb : t.rxbuf = s.rxbuf)
     (hx : t.txbuf = s.txbuf)
   (ht : ∃ w, t.tx = { s.tx with attempt := s.tx.attempt + 1#8, waiting := true, t0 := w }) : Sound t := by
  obtain ⟨w, ht⟩ := ht
  obtain ⟨r1, r2, r3, r4, r5, r6, r7⟩ := h.runOf hp
  have hat : (s.tx.attempt + 1#8).toNat = s.tx.attempt.toNat + 1 := by
    have := s.par.txRetryLimit.isLt
    rw [BitVec.toNat_add]; simp; omega
  refine Sound.of_tx h h1 hc hi hr hb (hx ▸ h.txbuf) (.inr ⟨by rw [ht]; exact hp, ?_⟩)
  unfold runSound State.headerLen
  rw [ht, h1, hi, hr, hx]
  exact ⟨r1, r2, r3, by dsimp only; omega, fun _ => by dsimp only; omega, r6, r7⟩

/-- The start of an attempt (R233, R234, R246 to R250). -/
theorem State.txBegin_sound {s : State} (h : Sound s) (hp : s.tx.phase ≠ .txIdle) : ∃ t, s.txBegin = .next t ∧
    Sound t := by
  rcases s.txBegin_cases hp with ⟨h', e⟩ | ⟨ha, ⟨h1, e⟩ | ⟨h1, e⟩ | ⟨h1, e⟩ | ⟨h1, e⟩ | ⟨h1, _, e⟩ | ⟨h1, hf,
    e⟩⟩ <;> rw [e]
  · exact ⟨_, rfl, Sound.of_tx h rfl rfl rfl rfl rfl h.txbuf (.inl ⟨rfl, rfl⟩)⟩
  · exact ⟨_, rfl, Sound.of_attempt h hp ha rfl rfl rfl rfl rfl rfl ⟨_, rfl⟩⟩
  · exact ⟨_, rfl, Sound.of_attempt h hp ha rfl rfl rfl rfl rfl rfl ⟨_, rfl⟩⟩
  · exact ⟨_, rfl, Sound.of_attempt h hp ha rfl rfl rfl rfl rfl rfl ⟨_, rfl⟩⟩
  · exact ⟨_, rfl, Sound.of_attempt h hp ha rfl rfl rfl rfl rfl rfl ⟨_, rfl⟩⟩
  · exact ⟨_, rfl, Sound.of_attempt h hp ha rfl rfl rfl rfl rfl rfl ⟨_, rfl⟩⟩
  · exfalso
    obtain ⟨r1, r2, r3, r4, r5, r6, r7⟩ := h.runOf hp
    obtain ⟨_, _, _, _, a5⟩ := (admissible_iff _ _ _ _).1 r3
    have := r6 h1
    have := packetChoice_le s.cfg.use1k (s.tx.size - s.tx.off.toNat)
    unfold State.txPacket at hf
    omega

/-- A phase entered with a fresh budget (R241). -/
theorem Sound.of_phase {s t : State} (h : Sound s) (hp : s.tx.phase ≠ .txIdle) {p : TxPhase} (hp' : p ≠ .txIdle)
   (h1 : t.par = s.par) (hc : t.cfg = s.cfg) (hi : t.inited = s.inited) (hr : t.rx = s.rx) (hb : t.rxbuf = s.rxbuf)
     (hx : t.txbuf.wf)
   (ht : ∃ sq o, t.tx = { s.tx with phase := p, attempt := 0#8, waiting := false, seq := sq, off := o } ∧ (p = .data →
     o.toNat < s.tx.size) ∧
      (p = .header → t.txbuf.readRun 0 s.headerLen = headerText s.tx.name s.tx.size)) : Sound t := by
  obtain ⟨sq, o, ht, hd, hh⟩ := ht
  obtain ⟨r1, r2, r3, r4, r5, r6, r7⟩ := h.runOf hp
  refine Sound.of_tx h h1 hc hi hr hb hx (.inr ⟨by rw [ht]; exact hp', ?_⟩)
  unfold runSound State.headerLen
  rw [ht, h1, hi, hr]
  exact ⟨r1, r2, r3, by simp, by simp, hd, hh⟩

/-- The data phase goes on or ends (R239, R244). -/
theorem State.txNextData_sound {s : State} (h : Sound s) (hp : s.tx.phase ≠ .txIdle) (sq o) :
    Sound ({ s with tx := { s.tx with seq := sq, off := o } } : State).txNextData := by
  rcases State.txNextData_cases { s with tx := { s.tx with seq := sq, off := o } } with ⟨h1, e⟩ | ⟨h1, e⟩ <;> rw [e]
  · exact Sound.of_phase h hp (p := .data) (by decide) rfl rfl rfl rfl rfl h.txbuf ⟨sq, o, rfl, fun _ => h1, by simp⟩
  · exact Sound.of_phase h hp (p := .eotA) (by decide) rfl rfl rfl rfl rfl h.txbuf ⟨sq, o, rfl, by simp, by simp⟩

/-- The next step of the procedure (R230). -/
theorem State.txAdvance_sound {s : State} (h : Sound s) (hp : s.tx.phase ≠ .txIdle) : ∃ t, s.txAdvance = .next t ∧
    Sound t := by
  obtain ⟨r1, r2, r3, r4, r5, r6, r7⟩ := h.runOf hp
  obtain ⟨a1, a2, a3, a4, a5⟩ := (admissible_iff _ _ _ _).1 r3
  unfold State.txAdvance
  cases hph : s.tx.phase
  · exact absurd hph hp
  · dsimp only
    have hl : (headerText s.tx.name s.tx.size).length = s.headerLen := by simp [headerText, State.headerLen]; omega
    have hl' : s.headerLen ≤ 128 := a4
    rw [State.txBuildHeader_of_le (by rw [hl]; have := (SoundRegs.buffers h.regs r1).2; omega)]
    exact ⟨_, rfl, Sound.of_phase h hp (p := .header)
      (by decide) rfl rfl rfl rfl rfl (Memory.write_wf h.txbuf _ _) ⟨_, _, rfl, by simp, fun _ => by
      rw [← hl]; exact Memory.readRun_write_self _ _ _⟩⟩
  · exact ⟨_, rfl, Sound.of_phase h hp (p := .waitC2) (by decide) rfl rfl rfl rfl rfl h.txbuf ⟨_, _, rfl, by simp,
      by simp⟩⟩
  · exact ⟨_, rfl, State.txNextData_sound h hp _ _⟩
  · exact ⟨_, rfl, State.txNextData_sound h hp _ _⟩
  · exact ⟨_, rfl, Sound.of_phase h hp (p := .eotB) (by decide) rfl rfl rfl rfl rfl h.txbuf ⟨_, _, rfl, by simp,
      by simp⟩⟩
  · exact ⟨_, rfl, Sound.of_phase h hp (p := .waitC3) (by decide) rfl rfl rfl rfl rfl h.txbuf ⟨_, _, rfl, by simp,
      by simp⟩⟩
  · exact ⟨_, rfl, Sound.of_phase h hp (p := .closing) (by decide) rfl rfl rfl rfl rfl h.txbuf ⟨_, _, rfl, by simp,
      by simp⟩⟩
  · exact ⟨_, rfl, Sound.of_tx h rfl rfl rfl rfl rfl h.txbuf (.inl ⟨rfl, rfl⟩)⟩

/-- A wait goes on or ends. -/
theorem Sound.waiting {s : State} (h : Sound s) (hp : s.tx.phase ≠ .txIdle) (hw : s.tx.waiting = true) (w e) :
    Sound ({ s with env := e, tx := { s.tx with waiting := w } } : State) := by
  obtain ⟨r1, r2, r3, r4, r5, r6, r7⟩ := h.runOf hp
  exact Sound.of_tx h rfl rfl rfl rfl rfl h.txbuf (.inr ⟨hp, r1, r2, r3, r4, fun _ => r5 hw, r6, r7⟩)

/-- A byte read in a wait (R232). -/
theorem State.txByte_sound {s : State} (h : Sound s) (hp : s.tx.phase ≠ .txIdle) (hw : s.tx.waiting = true) (b) : ∃ t,
    s.txByte b = .next t ∧ Sound t := by
  rcases s.txByte_cases b with ⟨_, e⟩ | ⟨_, _, _, e⟩ | ⟨_, _, _, e⟩ | ⟨_, _, e⟩ <;> rw [e]
  · exact ⟨_, rfl, Sound.of_tx h rfl rfl rfl rfl rfl h.txbuf (.inl ⟨rfl, rfl⟩)⟩
  · exact State.txAdvance_sound h hp
  · exact ⟨_, rfl, Sound.waiting h hp hw false s.env⟩
  · refine ⟨_, rfl, ?_⟩
    obtain ⟨w, e⟩ := s.txTimeTest_frame; rw [e]; exact Sound.waiting h hp hw _ _

/-- INIT leaves a sound state when its operands are legal (R313). -/
theorem State.initialise_sound {s : State} (h : Sound s) {c : Cfg} (hc : cfgSound c) : Sound (s.initialise c) := by
  refine ⟨h.par, h.rxbuf, h.txbuf, fun _ => hc, fun hn => absurd rfl hn, .inl ⟨rfl, rfl, rfl, rfl⟩,
    by simp [State.initialise, RxState.receiving], by simp [State.initialise], by simp [State.initialise],
    by simp [State.initialise], by simp [State.initialise], by simp [State.initialise], by simp [State.initialise],
    by simp [State.initialise], .inl ⟨rfl, rfl⟩⟩


end Sys2Proof.Machine
end

