-- ==== Sys2Proof/Laws/Trace.lean ====
section
/-! SUPPORT. Reading the record of port transactions: what stretches say, and what each row of R171 adds (00_scope.md R14). -/

namespace Sys2Proof.Machine

theorem putsOf_append (a b : List PortCall) : putsOf (a ++ b) = putsOf a ++ putsOf b := by
  induction a with
  | nil => rfl
  | cons x t ih => cases x <;> simp [putsOf, ih]

theorem finishesOf_append (a b : List PortCall) : finishesOf (a ++ b) = finishesOf a ++ finishesOf b := by
  induction a with
  | nil => rfl
  | cons x t ih => cases x <;> simp [finishesOf, ih]

theorem putsOf_map_put (l : List Byte) : putsOf (l.map .put) = l := by
  induction l with
  | nil => rfl
  | cons b t ih => simp [putsOf, ih]

/-- A read of the link puts nothing, calls nobody and reads no tick. -/
theorem quiet_of_isLinkRead {c : PortCall} (h : isLinkRead c = true) :
    putsOf [c] = [] ∧ finishesOf [c] = [] ∧ isTick c = false ∧ isCallback c = false ∧ receiverMay c = true := by
  cases c <;> simp [isLinkRead] at h <;> simp [putsOf, finishesOf, isTick, isCallback, receiverMay]

/-- What a row adds to the record: OnFinish only with success, after an ACK, from RecvFinish to Idle; no tick, no read, at most one
callback, at most five bytes (R171, R172, R209). -/
theorem Row.trace {s : State} {rx : Rx} {env : Env} {r : Result} (h : Row s rx env r) :
    ∃ calls, env.trace = s.env.trace ++ calls ∧ env.requests = s.env.requests ∧
      ((r = .status .noEvent ∧ finishesOf calls = []) ∨
       (r = .status .success ∧ calls = [.put 0x06#8, .onFinish .success] ∧ s.rx.state = .recvFinish ∧
        rx.state = .idle)) ∧
      calls.all receiverMay = true ∧ calls.countP isTick = 0 ∧ calls.countP isLinkRead = 0 ∧
      calls.countP isCallback ≤ 1 ∧ (putsOf calls).length ≤ 5 := by
  cases h with
  | can => exact ⟨[], by simp, rfl, .inl ⟨rfl, rfl⟩, rfl, rfl, rfl, by simp, by simp [putsOf]⟩
  | framing => exact ⟨[.put 0x15#8], by simp, rfl, .inl ⟨rfl, rfl⟩, rfl, rfl, rfl, by decide, by decide⟩
  | unparsable => exact ⟨[], by simp, rfl, .inl ⟨rfl, rfl⟩, rfl, rfl, rfl, by simp, by simp [putsOf]⟩
  | headerRejected n z =>
    exact ⟨[.onHeader n z false], by simp, by simp, .inl ⟨rfl, rfl⟩, rfl, rfl, rfl, by simp [isCallback], by simp [putsOf]⟩
  | headerAccepted n z =>
    exact ⟨[.onHeader n z true, .put 0x06#8, .put 0x43#8], by simp, by simp, .inl ⟨rfl, rfl⟩, rfl, rfl, rfl,
      Nat.le_refl 1, by simp [putsOf]⟩
  | dataAccepted =>
    exact ⟨[.onPacket s.payload s.rx.pktSize.toNat true, .put 0x06#8], by simp, by simp, .inl ⟨rfl, rfl⟩, rfl, rfl, rfl,
      Nat.le_refl 1, by simp [putsOf]⟩
  | dataRejected =>
    exact ⟨[.onPacket s.payload s.rx.pktSize.toNat false], by simp, by simp, .inl ⟨rfl, rfl⟩, rfl, rfl, rfl,
      by simp [isCallback], by simp [putsOf]⟩
  | firstEot => exact ⟨[.put 0x15#8], by simp, rfl, .inl ⟨rfl, rfl⟩, rfl, rfl, rfl, by decide, by decide⟩
  | secondEot => exact ⟨[.put 0x06#8, .put 0x43#8], by simp, rfl, .inl ⟨rfl, rfl⟩, rfl, rfl, rfl, by decide, by decide⟩
  | closed =>
    exact ⟨[.put 0x06#8, .onFinish .success], by simp, rfl, .inr ⟨rfl, rfl, by assumption, rfl⟩, rfl, rfl, rfl, by decide,
      by decide⟩
  | moreFiles => exact ⟨[], by simp, rfl, .inl ⟨rfl, rfl⟩, rfl, rfl, rfl, by simp, by simp [putsOf]⟩

/-- What an acted-on deadline changes (R188, R199, R202, R208). -/
theorem State.deadlineAction_next {u t : State} (hr : u.rx.state.receiving = true) (h : u.deadlineAction = .next t) :
    t.result = .status .noEvent ∧ t.cfg = u.cfg ∧ t.par = u.par ∧
      ((u.rx.state = .recvHeader ∧ t.env = u.env ∧ t.rx = { u.rx with state := .idle }) ∨
       (t.env = u.env.put 0x15#8 ∧ t.rx = u.rx.afterNak (nakReason u.par u.rx.state))) := by
  rcases State.deadlineAction_cases u hr with ⟨h1, h2⟩ | ⟨h1, h2⟩
  · rw [h2] at h; cases h; exact ⟨rfl, rfl, rfl, .inl ⟨h1, rfl, rfl⟩⟩
  · rw [h2, State.framingError_eq] at h; cases h; exact ⟨rfl, rfl, rfl, .inr ⟨rfl, rfl⟩⟩

end Sys2Proof.Machine
end

