-- ==== Sys2Proof/Tests/Slice0.lean ====
section
/-! SUPPORT. The model's own tests. Expected values are the spec's: 95_test_vectors.md and 96_test_vectors_derived.md, each cited by
its id; then, for each obligation with hypotheses, a witness that meets them. -/

namespace Sys2Proof.Tests

open Sys2Proof Sys2Proof.Machine

-- One test at a time: tests that wait for each other in threads of their own exceed the check's memory for stacks.
set_option Elab.async false

/-! ### Helpers -/

/-- The test of a next state. -/
def after (o : Out) (p : State → Bool) : Bool :=
  match o with
  | .next t => p t
  | .fault _ => false
  | .refused _ => false

/-- The operation is refused so. -/
def refusedAs (o : Out) (r : Refusal) : Bool :=
  match o with
  | .refused r' => decide (r' = r)
  | .next _ => false
  | .fault _ => false

/-- A session after INIT(1000, 100, 0, 1, 1029, 128), the tick counter at 0. -/
def session : State := { State.reset with
  inited := true
  cfg := { sessionTimeout := 1000#32, ackTimeout := 100#32, charTimeout := 0#32, use1k := true,
           rxbufSize := 1029#16, txbufSize := 128#16 }
  env := { Env.reset with tick := 0#32 } }

/-- A receiving session: RX_STATE, SEQ, RETRY, ACTIVE and the tick of the poll. -/
def receiver (st : RxState) (seq retry : Byte) (active : Bool) (now : Word) : State := { session with
  rx := { session.rx with state := st, seq := seq, retry := retry, active := active, now := now } }

/-- A run sending the two bytes "AB" under the name "a". -/
def sender (p : TxPhase) (waiting : Bool) : State := { session with
  tx := { session.tx with phase := p, waiting := waiting, attempt := if waiting then 1#8 else 0#8
                          name := [0x61#8], size := 2, file := [0x41#8, 0x42#8] }
  txbuf := [(0, 0x61#8), (2, 0x32#8)] }

/-- What the next ticks and link reads bring. -/
def given (s : State) (advances : List (BitVec 31)) (arrivals : List (List Byte)) : State :=
  { s with env := { s.env with advances := advances, arrivals := arrivals } }

/-- The payload of scenario S2: "ABCD" and fill. -/
def payloadS2 : List Byte := [0x41#8, 0x42#8, 0x43#8, 0x44#8] ++ List.replicate 124 0x1A#8

/-- The frame `G` of 96_test_vectors_derived.md 2.2, written out. -/
def frameG : List Byte := [0x01#8, 0x01#8, 0xFE#8] ++ payloadS2 ++ [0x43#8, 0x93#8]

/-- The payload of scenario S1: "test.bin", NUL, "4", zeros. -/
def payloadS1 : List Byte :=
  [0x74#8, 0x65#8, 0x73#8, 0x74#8, 0x2E#8, 0x62#8, 0x69#8, 0x6E#8, 0x00#8, 0x34#8] ++ List.replicate 118 0x00#8

/-! ### WellFormed refuses what the formats cannot express -/

set_option maxRecDepth 100000 in
theorem test_soh_needs_128 : (Instr.soh 0#8 0xFF#8 (List.replicate 127 0#8) 0#8 0#8).wellFormed = false := by decide
set_option maxRecDepth 100000 in
theorem test_stx_needs_1024 : (Instr.stx 0#8 0xFF#8 (List.replicate 128 0#8) 0#8 0#8).wellFormed = false := by decide

/-! ### Decoding of words written out from R90, R92, R103 -/

theorem test_decode_soh : decode (.wire frameG) = .ok (.soh 0x01#8 0xFE#8 payloadS2 0x43#8 0x93#8) := by decide
set_option maxRecDepth 100000 in
theorem test_decode_stx :
    decode (.wire ([0x02#8, 0x05#8, 0xFA#8] ++ List.replicate 1024 0x5A#8 ++ [0xBC#8, 0xA7#8])) =
      .ok (.stx 0x05#8 0xFA#8 (List.replicate 1024 0x5A#8) 0xBC#8 0xA7#8) := by decide +kernel
theorem test_decode_eot : decode (.wire [0b00000100#8]) = .ok .eot := by decide
theorem test_decode_ack : decode (.wire [0b00000110#8]) = .ok .ack := by decide
theorem test_decode_nak : decode (.wire [0b00010101#8]) = .ok .nak := by decide
theorem test_decode_can : decode (.wire [0b00011000#8]) = .ok .can := by decide
theorem test_decode_c : decode (.wire [0b01000011#8]) = .ok .c := by decide
theorem test_decode_init :
    decode (.command { code := 0b001#3, sessionTimeout := 1000#32, ackTimeout := 100#32, charTimeout := 7#32, use1k := 1,
                       rxbufSize := 1029#16, txbufSize := 128#16 }) =
      .ok (.init 1000#32 100#32 7#32 1 1029#16 128#16) := by decide
theorem test_decode_rxStep : decode (.command { code := 0b010#3 }) = .ok .rxStep := by decide
theorem test_decode_sendFile :
    decode (.command { code := 0b011#3, filename := [0x61#8], filesize := 1, file := [0x5A#8] }) =
      .ok (.sendFile [0x61#8] 1 [0x5A#8]) := by decide
theorem test_decode_crc16 :
    decode (.command { code := 0b100#3, seed := 0xBEEF#16, data := [0x31#8], len := 1 }) =
      .ok (.crc16 0xBEEF#16 [0x31#8] 1) := by decide
theorem test_decode_validate :
    decode (.command { code := 0b101#3, data := [0x18#8], len := 1, expectedSeq := 7#8 }) =
      .ok (.validate [0x18#8] 1 7#8) := by decide
theorem test_decode_encode :
    decode (.command { code := 0b110#3, header := 1#8, seq := 2#8, fill := 0x1A#8, data := [0x5A#8], len := 1 }) =
      .ok (.encode 1#8 2#8 0x1A#8 [0x5A#8] 1) := by decide
theorem test_decode_unassigned : decode (.command { code := 0b111#3 }) = .error .unassigned := by decide
theorem test_decode_noOperation : decode (.command { code := 0b000#3 }) = .error .noOperation := by decide
theorem test_decode_badSync : decode (.wire [0x03#8]) = .error .badSync := by decide
theorem test_decode_shortFrame : decode (.wire [0x01#8, 0x00#8, 0xFF#8]) = .error .shortFrame := by decide
theorem test_decode_trailing : decode (.wire [0x04#8, 0x04#8]) = .error .trailingBytes := by decide

/-! ### CRC16, VALIDATE, ENCODE -/

/-- A request with one of the three codes that take a byte operand, `len` one beyond the bytes given. -/
def shortOperand (code : BitVec 3) : State := { session with
  env := { session.env with requests := [{ code := code, header := 0x01#8, data := [0x06#8], len := 2 }] } }

theorem test_len_beyond_operand_runs : -- log 24: CRC16, VALIDATE (the first byte is given: R141, R147), ENCODE (133 bytes: R149)
    after (step (shortOperand 0b100#3)) (fun t => t.env.requests = []) = true ∧
    after (step (shortOperand 0b101#3)) (fun t => t.result = .verdict (.control 0x06#8)) = true ∧
    after (step (shortOperand 0b110#3)) (fun t => t.env.linkOut.length = 133) = true := by decide +kernel

theorem test_crc16_digits : (-- V-CRC-8, V-INI-3: on the state right after hardware reset
    after (exec (.crc16 0#16 [0x31#8, 0x32#8, 0x33#8, 0x34#8, 0x35#8, 0x36#8, 0x37#8, 0x38#8, 0x39#8] 9) State.reset)
      (fun t => t.crcAcc = 0x31C3#16)) = true := by decide +kernel
theorem test_crc16_seed_returned : (-- V-CRC-2: len 0 returns the seed, whatever the buffer holds
    after (exec (.crc16 0xBEEF#16 [0x31#8] 0) session) (fun t => t.result = .crc 0xBEEF#16)) = true := by decide +kernel
set_option maxRecDepth 100000 in
theorem test_validate_valid : (-- V-VAL-18
    after (exec (.validate frameG 133 1#8) session) (fun t => t.result = .verdict .valid && t.crcAcc = 0x4393#16)) =
      true := by decide +kernel
theorem test_validate_order : (-- V-VAL-17: complement before sequence
    after (exec (.validate (frameG.set 1 0x02#8) 133 2#8) session)
      (fun t => t.result = .verdict (.invalid .complement))) = true := by decide +kernel
set_option maxRecDepth 100000 in
theorem test_encode_abcd : (-- V-ENC-2
    after (exec (.encode 1#8 1#8 0x1A#8 [0x41#8, 0x42#8, 0x43#8, 0x44#8] 4) session)
      (fun t => t.env.linkOut = frameG)) = true := by decide +kernel
theorem test_encode_domain : (-- V-INI-16
    refusedAs (exec (.encode 1#8 0#8 0#8 (List.replicate 129 0#8) 129) session) .encodeDomain) = true := by
  decide +kernel

/-! ### Header payloads -/

theorem test_parse_zero_size : -- S8 (b): the size string "0" is a parse error
    parseHeader 4294967295 ([0x61#8, 0x00#8, 0x30#8] ++ List.replicate 125 0#8) = none := by decide +kernel
theorem test_headerText : -- V-HDR-2
    headerText [0x61#8, 0x2E#8, 0x62#8, 0x69#8, 0x6E#8] 1500 =
      [0x61#8, 0x2E#8, 0x62#8, 0x69#8, 0x6E#8, 0x00#8, 0x31#8, 0x35#8, 0x30#8, 0x30#8] := by decide +kernel

/-! ### INIT -/

theorem test_init_restarts : (-- V-INI-10
    after (exec (.init 1000#32 100#32 0#32 1 1029#16 128#16) (receiver .recvData 3#8 2#8 true 0#32))
      (fun t => t.rx.state = .idle && t.rx.seq = 0#8 && t.rx.retry = 0#8 && t.rx.active = false &&
        t.env.trace = [])) = true := by decide +kernel
theorem test_init_rxbuf_size : (-- V-INI-5
    refusedAs (exec (.init 1000#32 100#32 0#32 1 1028#16 128#16) session) .badConfiguration) = true := by decide +kernel

/-! ### RX_STEP -/

theorem test_rxStep_idle : (-- V-RX-1: pending input discarded, 'C' sent
    after (exec .rxStep (given session [10#31] [[0x01#8, 0x02#8, 0x03#8]]))
      (fun t => t.env.linkOut = [0x43#8] && t.env.linkIn = [] && t.rx.state = .recvHeader && t.rx.last = 10#32)) =
      true := by decide +kernel
theorem test_rxStep_deadline_wraps : (-- V-TIM-5: LAST 0xFFFFFF00, now 744
    after (exec .rxStep (given { receiver .recvData 1#8 0#8 true 0#32 with
        rx := { (receiver .recvData 1#8 0#8 true 0#32).rx with last := 0xFFFFFF00#32 } } [744#31] [[]]))
      (fun t => t.env.linkOut = [0x15#8] && t.rx.retry = 1#8 && t.rx.last = 744#32)) = true := by decide +kernel

/-! ### Units received -/

set_option maxRecDepth 100000 in
theorem test_soh_data_accepted : (-- V-RX-11: delivered untrimmed
    after (exec (.soh 0x01#8 0xFE#8 payloadS2 0x43#8 0x93#8)
        { receiver .recvData 1#8 2#8 true 14#32 with
          env := { session.env with answers := [true] } })
      (fun t => t.env.trace = [.onPacket payloadS2 128 true, .put 0x06#8] && t.rx.seq = 2#8 && t.rx.retry = 0#8 &&
        t.rx.last = 14#32)) = true := by decide +kernel
set_option maxRecDepth 100000 in
theorem test_soh_bad_crc : (-- V-RX-15b
    after (exec (.soh 0x01#8 0xFE#8 payloadS2 0x43#8 0x92#8) (receiver .recvData 1#8 0#8 true 17#32))
      (fun t => t.env.trace = [.put 0x15#8] && t.rx.seq = 1#8 && t.rx.retry = 1#8)) = true := by decide +kernel
set_option maxRecDepth 100000 in
theorem test_stx_seq_wraps : (-- R194 with SEQ 255, as V-RX-11b; the payload and CRC of V-CRC-13
    after (exec (.stx 0xFF#8 0x00#8 (List.replicate 1024 0x00#8) 0x00#8 0x00#8)
        { receiver .recvData 255#8 0#8 true 14#32 with
          env := { session.env with answers := [true] } })
      (fun t => t.rx.seq = 0#8 && t.env.linkOut = [0x06#8])) = true := by decide +kernel
set_option maxRecDepth 100000 in
theorem test_stx_closing : (-- V-RX-23b
    after (exec (.stx 0x00#8 0xFF#8 (List.replicate 1024 0x00#8) 0x00#8 0x00#8) (receiver .recvFinish 0#8 0#8 true 18#32))
      (fun t => t.env.trace = [.put 0x06#8, .onFinish .success] && t.rx.state = .idle && t.rx.active = false)) =
      true := by decide +kernel
theorem test_eot_second : (-- V-RX-18
    after (exec .eot (receiver .recvEotConfirm 2#8 1#8 true 16#32))
      (fun t => t.env.linkOut = [0x06#8, 0x43#8] && t.rx.state = .recvFinish && t.rx.seq = 0#8)) = true := by
  decide +kernel
theorem test_eot_in_finish : (-- V-RX-26
    after (exec .eot (receiver .recvFinish 0#8 0#8 true 18#32))
      (fun t => t.env.linkOut = [0x15#8] && t.rx.state = .recvFinish && t.rx.retry = 1#8)) = true := by decide +kernel
theorem test_can_terminates : (-- V-RX-14
    after (exec .can (receiver .recvData 5#8 0#8 true 15#32))
      (fun t => t.env.linkOut = [] && t.rx.state = .recvTerm && t.rx.reason = .remoteTermination && t.rx.seq = 5#8)) =
      true := by decide +kernel
theorem test_can_ends_run : (-- V-TX-14
    after (exec .can (sender .waitC1 true)) (fun t => t.result = .send false && t.tx.phase = .txIdle)) = true := by
  decide +kernel
theorem test_ack_third_error : (-- V-RX-20b
    after (exec .ack (receiver .recvEotConfirm 2#8 2#8 true 16#32))
      (fun t => t.rx.state = .recvErr && t.rx.retry = 3#8 && t.rx.reason = .timeout)) = true := by decide +kernel
theorem test_ack_after_data : (-- R243, R244: two bytes of two sent, so the first EOT is next
    after (exec .ack (sender .data true)) (fun t => t.tx.phase = .eotA && t.tx.seq = 1#8 && t.tx.off = 2#32)) = true := by
  decide +kernel
theorem test_nak_in_eotA : (-- V-TX-1, row EotA
    after (exec .nak (sender .eotA true)) (fun t => t.tx.phase = .eotB && t.tx.attempt = 0#8)) = true := by decide +kernel
theorem test_nak_repeats : (-- R234: the attempt ends, the phase stays
    after (exec .nak (sender .header true)) (fun t => t.tx.phase = .header && t.tx.waiting = false)) = true := by
  decide +kernel
theorem test_c_opens_header : (-- R233, R238: TXBUF holds "a", NUL, "2"
    after (exec .c (sender .waitC1 true))
      (fun t => t.tx.phase = .header && t.txbuf.readRun 0 3 = [0x61#8, 0x00#8, 0x32#8])) = true := by decide +kernel
theorem test_c_is_bad_sync : (-- V-RX-8
    after (exec .c (receiver .recvHeader 0#8 0#8 false 12#32))
      (fun t => t.env.linkOut = [0x15#8] && t.rx.retry = 1#8 && t.rx.last = 12#32)) = true := by decide +kernel

/-! ### SEND_FILE -/

theorem test_send_begins : (-- R230
    after (exec (.sendFile [0x61#8] 1 [0x5A#8]) session) (fun t => t.tx.phase = .waitC1 && t.env.trace = [])) = true := by
  decide +kernel
theorem test_send_zero_size : (-- V-INI-15
    refusedAs (exec (.sendFile [0x61#8] 0 []) session) .inadmissible) = true := by decide +kernel

/-! ### Witnesses: for each obligation with hypotheses, a state and operands that meet them -/

/-- A test that passed names its next state. -/
theorem next_of_after {o : Out} {p : State → Bool} (h : after o p = true) : ∃ t, o = .next t ∧ p t = true := by
  cases o with
  | next t => exact ⟨t, rfl, h⟩
  | fault f => simp [after] at h
  | refused r => simp [after] at h

theorem legal_default : Params.default.legal := ⟨by decide, by decide, by decide, .inl rfl⟩

theorem sound_session : Sound session where
  par := legal_default
  rxbuf := ⟨.nil, by simp [session, State.reset]⟩
  txbuf := ⟨.nil, by simp [session, State.reset]⟩
  cfg := fun _ => rfl
  started := fun _ => rfl
  asm := .inl ⟨rfl, rfl, rfl, rfl⟩
  zeros := fun _ _ _ _ => rfl
  retry := by decide
  budget := by decide
  seqZero := fun _ => rfl
  active := by decide
  inactive := fun _ => rfl
  reasonErr := by decide
  reasonTerm := by decide
  run := .inl ⟨rfl, rfl⟩

theorem sound_recvData : Sound (receiver .recvData 1#8 0#8 true 0#32) where
  par := legal_default
  rxbuf := ⟨.nil, by simp [receiver, session, State.reset]⟩
  txbuf := ⟨.nil, by simp [receiver, session, State.reset]⟩
  cfg := fun _ => rfl
  started := fun _ => rfl
  asm := .inl ⟨rfl, rfl, rfl, rfl⟩
  zeros := fun _ _ _ _ => rfl
  retry := by decide
  budget := by decide
  seqZero := by decide
  active := fun _ => rfl
  inactive := by decide
  reasonErr := by decide
  reasonTerm := by decide
  run := .inl ⟨rfl, rfl⟩

/-- A receiving state with the sync byte of `G` taken, the rest of it on the link. -/
def inBodyOf (st : RxState) (seq : Byte) (active : Bool) : State := { receiver st seq 0#8 active 0#32 with
  rx := { (receiver st seq 0#8 active 0#32).rx with
    asm := .awaitingBody, fill := 1#11, need := 133#11, pktSize := 128#11 }
  rxbuf := [(0, 0x01#8)]
  env := { session.env with linkIn := frameG.drop 1, arrivals := [[]], advances := [5#31] } }

/-- RecvData in the body of `G`. -/
def inBody : State := inBodyOf .recvData 1#8 true

theorem sound_inBodyOf {st : RxState} {seq : Byte} {active : Bool}
    (h : st = .recvHeader ∧ seq = 0#8 ∧ active = false ∨ st = .recvData ∧ seq = 1#8 ∧ active = true) :
    Sound (inBodyOf st seq active) where
  par := legal_default
  rxbuf := ⟨by simp [inBodyOf], by simp [inBodyOf]⟩
  txbuf := ⟨.nil, by simp [inBodyOf, receiver, session, State.reset]⟩
  cfg := fun _ => rfl
  started := fun _ => rfl
  asm := .inr ⟨rfl, by show 1 ≤ (1#11).toNat; decide, by show (1#11).toNat < (133#11).toNat; decide, .inl ⟨rfl, rfl, rfl⟩⟩
  zeros := by
    intro _ a ha _
    have h : 1 ≤ a := ha
    simp [inBodyOf, Memory.read]
    omega
  retry := by show (0#8).toNat ≤ 3; decide
  budget := fun _ => by show (0#8).toNat < 3; decide
  seqZero := by rcases h with ⟨rfl, rfl, rfl⟩ | ⟨rfl, rfl, rfl⟩ <;> decide
  active := by rcases h with ⟨rfl, rfl, rfl⟩ | ⟨rfl, rfl, rfl⟩ <;> decide
  inactive := by rcases h with ⟨rfl, rfl, rfl⟩ | ⟨rfl, rfl, rfl⟩ <;> decide
  reasonErr := by rcases h with ⟨rfl, rfl, rfl⟩ | ⟨rfl, rfl, rfl⟩ <;> decide
  reasonTerm := by rcases h with ⟨rfl, rfl, rfl⟩ | ⟨rfl, rfl, rfl⟩ <;> decide
  run := .inl ⟨rfl, rfl⟩

theorem sound_inBody : Sound inBody := sound_inBodyOf (.inr ⟨rfl, rfl, rfl⟩)

theorem sound_sender (p : TxPhase) (w : Bool) (hp : p ≠ .txIdle) : Sound (sender p w) where
  par := legal_default
  rxbuf := ⟨.nil, by simp [sender, session, State.reset]⟩
  txbuf := ⟨by simp [sender], by simp [sender]⟩
  cfg := fun _ => rfl
  started := fun _ => rfl
  asm := .inl ⟨rfl, rfl, rfl, rfl⟩
  zeros := fun _ _ _ _ => rfl
  retry := by simp [sender, session, State.reset]
  budget := by simp [sender, session, State.reset, RxState.receiving]
  seqZero := fun _ => rfl
  active := by simp [sender, session, State.reset]
  inactive := fun _ => rfl
  reasonErr := by simp [sender, session, State.reset]
  reasonTerm := by simp [sender, session, State.reset]
  run := .inr ⟨hp, rfl, rfl, by show admissible 4294967295 [0x61#8] 2 [0x41#8, 0x42#8] = true; decide,
    by cases w <;> simp [sender, session, State.reset, Params.default],
    by cases w <;> simp [sender],
    by simp [sender, session, State.reset],
    fun _ => by
      show Memory.readRun [(0, 0x61#8), (2, 0x32#8)] 0 ([0x61#8].length + 1 + (decimal 2).length) = headerText [0x61#8] 2
      decide⟩

set_option maxRecDepth 100000 in
theorem witness_DecodeInvertsEncode :
    (Instr.soh 1#8 0xFE#8 payloadS2 0x43#8 0x93#8).wellFormed = true ∧
    (Instr.soh 1#8 0xFE#8 payloadS2 0x43#8 0x93#8).isWire = true ∧
    (Instr.crc16 0#16 [0x31#8] 1).wellFormed = true ∧ (Instr.validate [] 0 0#8).wellFormed = true := by decide

theorem witness_EncodeInvertsDecode :
    decodeWire (frameG ++ [0x04#8]) = .ok (.soh 0x01#8 0xFE#8 payloadS2 0x43#8 0x93#8, [0x04#8]) ∧
    decodeWire [0x04#8, 0x01#8] = .ok (.eot, [0x01#8]) := by decide

theorem witness_IllegalFirstByteIsBadSync :
    (1 ≤ 1 ∧ 0x43#8 ∉ [0x01#8, 0x02#8, 0x04#8, 0x06#8, 0x15#8, 0x18#8]) ∧
    (1 ≤ 1 ∧ 0x00#8 ∉ [0x01#8, 0x02#8, 0x04#8, 0x06#8, 0x15#8, 0x18#8] ∧ (0x00#8 : Byte) ≠ 0x43#8) := by decide

theorem witness_StepRunsRequestedOperation : -- no request, and one of each kind
    (session.tx.phase = .txIdle ∧ session.env.requests = []) ∧
    ∀ code ∈ [0b010#3, 0b000#3, 0b111#3], ∃ (s : State) (q : Command), s.tx.phase = .txIdle ∧ s.env.requests = [q] ∧ q.code = code ∧
      (code = 0b010#3 → decodeCommand q = .ok .rxStep) :=
  ⟨⟨rfl, rfl⟩, fun code _ => ⟨{ session with env := { session.env with requests := [{ code := code }] } }, { code := code },
    rfl, rfl, rfl, by rintro rfl; rfl⟩⟩

theorem witness_StepRunsSymbolInWait : -- a symbol; EOF (V-TX-W5); a byte that is none, and a lone SOH (V-TX-W6)
    ∀ x ∈ [[0x43#8], [], [0xFF#8], [0x01#8]], ∃ s : State, s.tx.phase ≠ .txIdle ∧ s.tx.waiting = true ∧
      (s.env.get s.cfg.charTimeout).1 = x.head? ∧
      (x = [0x43#8] → decodeWire x = .ok (.c, [])) ∧
      (x = [0xFF#8] ∨ x = [0x01#8] → x.headD 0#8 ∉ [0x04#8, 0x06#8, 0x15#8, 0x18#8, 0x43#8]) := by
  intro x hx
  refine ⟨given (sender .waitC1 true) [] [x], by show TxPhase.waitC1 ≠ .txIdle; decide, rfl, ?_, by rintro rfl; rfl, by rintro (rfl | rfl) <;> decide⟩
  revert x; decide

theorem witness_RxStepRunsCompletedUnit_control :
    ∃ s u, Sound s ∧ s.tx.phase = .txIdle ∧ s.rx.state.receiving = true ∧ s.latchTick.assemble = .ok (true, u) ∧
      decodeWire (u.rxbuf.readRun 0 u.rx.fill.toNat) = .ok (.eot, []) :=
  ⟨given (receiver .recvData 1#8 0#8 true 0#32) [1#31] [[0x04#8]], _, sound_recvData.env _ _ _, rfl, rfl, rfl, rfl⟩

theorem witness_Crc16Completes : -- all of the data, and none
    (session.tx.phase = .txIdle ∧ 1 ≤ [0x31#8].length) ∧ (session.tx.phase = .txIdle ∧ 0 ≤ [0x31#8].length) := by decide

theorem witness_CrcResidueAndLinearity : [0x01#8, 0x80#8].length = [0x41#8, 0x42#8].length := rfl

theorem witness_CrcDetectsAnySingleByteChange : (0x44#8 : Byte) ≠ 0x45#8 := by decide -- S7

set_option maxRecDepth 100000 in
theorem witness_ValidateReportsFirstFailingCheck : -- V-VAL-1, 2, 8, 11, 16, 19, 22, 18: every clause
    (validate [] 0 0#8 0#16).1 = .invalid .empty ∧ (validate [0x06#8] 1 0#8 0#16).1 = .control 0x06#8 ∧
    (validate [0x43#8] 1 0#8 0#16).1 = .invalid .sync ∧ (validate [0x01#8, 0x01#8, 0xFE#8] 3 1#8 0#16).1 = .invalid .length ∧
    (validate (frameG.set 2 0xFF#8) 133 1#8 0#16).1 = .invalid .complement ∧
    (validate frameG 133 2#8 0#16).1 = .invalid .sequence ∧
    (validate (frameG.set 132 0x92#8) 133 1#8 0#16).1 = .invalid .crc ∧ (validate frameG 133 1#8 0#16).1 = .valid := by
  decide +kernel

set_option maxRecDepth 100000 in
theorem witness_ValidateCompletes : -- V-VAL-18 and V-VAL-22: both verdicts of check 6
    (session.tx.phase = .txIdle ∧ 133 ≤ frameG.length ∧ (validate frameG 133 1#8 0#16).1 = .valid) ∧
    (133 ≤ (frameG.set 132 0x92#8).length ∧ (validate (frameG.set 132 0x92#8) 133 1#8 0#16).1 = .invalid .crc) := by
  decide +kernel

set_option maxRecDepth 100000 in
theorem witness_EncodePutsTheFrame : -- both formats, the payload exactly as long as the frame admits
    (session.tx.phase = .txIdle ∧ (((0x01#8 : Byte) = 0x01#8 ∧ 128 = 128) ∨ ((0x01#8 : Byte) = 0x02#8 ∧ 128 = 1024)) ∧
      128 ≤ payloadS2.length ∧ 128 ≤ 128) ∧
    (session.tx.phase = .txIdle ∧ (((0x02#8 : Byte) = 0x01#8 ∧ 1024 = 128) ∨ ((0x02#8 : Byte) = 0x02#8 ∧ 1024 = 1024)) ∧
      1024 ≤ (List.replicate 1024 0x5A#8).length ∧ 1024 ≤ 1024) := by
  rw [List.length_replicate]; decide

theorem witness_EncodeRefusedOutsideDomain : -- R152, each condition by the least that meets it
    ∀ x ∈ [(0x03#8, 0), (0x01#8, 129), (0x02#8, 1025)], session.tx.phase = .txIdle ∧
      (((x.1 : Byte) ≠ 0x01#8 ∧ x.1 ≠ 0x02#8) ∨ (x.1 = 0x01#8 ∧ 128 < x.2) ∨ (x.1 = 0x02#8 ∧ 1024 < x.2)) := by decide

set_option maxRecDepth 100000 in
theorem witness_EncodedFrameValidates :
    ((((0x01#8 : Byte) = 0x01#8 ∧ 128 = 128) ∨ ((0x01#8 : Byte) = 0x02#8 ∧ 128 = 1024)) ∧ payloadS2.length ≤ 128) ∧
    ((((0x02#8 : Byte) = 0x01#8 ∧ 1024 = 128) ∨ ((0x02#8 : Byte) = 0x02#8 ∧ 1024 = 1024)) ∧
      ([] : List Byte).length ≤ 1024) := by decide

theorem witness_DecimalIsShortest : 1 ≤ 1 ∧ decimal 1 = [0x31#8] ∧ decimal 10 = [0x31#8, 0x30#8] := by decide

theorem witness_ParseHeaderGrammar : -- both verdicts, at the limit (V-HDR-2; 92_eei_decisions.md D19)
    parseHeader 1501 (headerText [0x61#8] 1500) = some ([0x61#8], 1500) ∧
    parseHeader 1500 (headerText [0x61#8] 1500) = none := by decide +kernel

set_option maxRecDepth 10000 in
theorem witness_ParseInvertsBuild : -- V-HDR-9: exactly 128 bytes
    0x00#8 ∉ List.replicate 120 0x6E#8 ∧ 1 ≤ 1234567 ∧ 1234567 < 4294967295 ∧
    (headerText (List.replicate 120 0x6E#8) 1234567).length ≤ 128 := by decide +kernel

theorem witness_InitRestartsTheSession : -- the least legal operands, and the greatest
    (session.tx.phase = .txIdle ∧ 1 ≤ (1#32).toNat ∧ (1#32).toNat ≤ 2147483647 ∧ (0#32).toNat ≤ 2147483647 ∧ 0 ≤ 1 ∧
      1029 ≤ (1029#16).toNat ∧ 128 ≤ (128#16).toNat) ∧
    (session.tx.phase = .txIdle ∧ 1 ≤ (2147483647#32).toNat ∧ (2147483647#32).toNat ≤ 2147483647 ∧ 1 ≤ 1 ∧
      1029 ≤ (65535#16).toNat ∧ 128 ≤ (65535#16).toNat) := by decide

theorem witness_InitRefusesIllegalOperands : -- V-INI-5 to V-INI-9: one step beyond every bound
    session.tx.phase = .txIdle ∧ (0#32).toNat = 0 ∧ 2147483647 < (2147483648#32).toNat ∧ 2 ≤ 2 ∧
    (1028#16).toNat < 1029 ∧ (127#16).toNat < 128 := by decide

theorem witness_NoSessionBeforeInit : State.reset.inited = false := rfl

theorem witness_OverlappingOperationsRefused :
    (sender .data true).inited = true ∧ (sender .data true).tx.phase ≠ .txIdle ∧ Instr.rxStep.isWire = false := by decide

theorem witness_ConfigurationWrittenOnlyByInit : -- and a step that writes it
    step session = .next session ∧
    ∃ s t, s.tx.phase = .txIdle ∧ (∃ q, s.env.requests = [q] ∧ q.code = 0b001#3) ∧ step s = .next t ∧ t.cfg ≠ s.cfg :=
  ⟨rfl, { session with env := { session.env with requests := [
    { code := 0b001#3, sessionTimeout := 5#32, ackTimeout := 1#32, rxbufSize := 1029#16, txbufSize := 128#16 }] } },
    _, rfl, ⟨_, rfl, rfl⟩, rfl, by decide⟩

theorem witness_IdlePollOpensSession : listens session .idle := ⟨rfl, rfl, rfl⟩

theorem witness_SilentPollActsOnlyOnDeadline : -- V-RX-2, V-RX-3, V-RX-9, V-RX-10: one tick before the deadline, and on it
    ∀ st ∈ [RxState.recvHeader, .recvData, .recvEotConfirm, .recvFinish], ∀ d ∈ [999#31, 1000#31], ∃ s : State,
      listens s st ∧ st.receiving = true ∧ s.rx.asm = .awaitingSync ∧ s.env.linkIn = [] ∧ s.env.arrivals = [[]] ∧
      (s.cfg.sessionTimeout.toNat ≤ (s.env.readTick.1 - s.rx.last).toNat ↔ d = 1000#31) := by
  intro st hst d hd
  refine ⟨given (receiver st 0#8 0#8 true 0#32) [d] [[]], ⟨rfl, rfl, rfl⟩, ?_, rfl, rfl, rfl, ?_⟩
  · revert st; decide
  · show (1000#32).toNat ≤ (0#32 + d.setWidth 32 - 0#32).toNat ↔ d = 1000#31
    clear hst
    simp only [List.mem_cons, List.not_mem_nil, or_false] at hd
    rcases hd with rfl | rfl <;> decide

theorem witness_SyncByteOpensFrame : -- both sync bytes, one tick before the deadline and on it, in RecvHeader and later
    ∀ st ∈ [RxState.recvHeader, .recvData], ∀ x ∈ [(0x01#8, 128), (0x02#8, 1024)], ∀ d ∈ [999#31, 1000#31], ∃ s : State,
      listens s st ∧ st.receiving = true ∧ s.rx.asm = .awaitingSync ∧ 1 ≤ s.cfg.rxbufSize.toNat ∧
      (s.env.readTick.2.get s.cfg.charTimeout).1 = some x.1 ∧
      ((x.1 = (0x01#8 : Byte) ∧ x.2 = 128) ∨ (x.1 = 0x02#8 ∧ x.2 = 1024)) ∧
      (s.cfg.sessionTimeout.toNat ≤ (s.env.readTick.1 - s.rx.last).toNat ↔ d = 1000#31) := by
  intro st hst x hx d hd
  refine ⟨given (receiver st 0#8 0#8 false 0#32) [d] [[x.1]], ⟨rfl, rfl, rfl⟩, ?_, rfl,
    by show 1 ≤ (1029#16).toNat; decide, rfl, ?_, ?_⟩
  · revert st; decide
  · revert x; decide
  · show (1000#32).toNat ≤ (0#32 + d.setWidth 32 - 0#32).toNat ↔ d = 1000#31
    simp only [List.mem_cons, List.not_mem_nil, or_false] at hd
    rcases hd with rfl | rfl <;> decide

theorem witness_BodyBytesStoredInOrder : -- V-ASM-2: 40 of the 132 bytes pending are handed over, before the deadline
    ∃ s, Sound s ∧ listens s .recvData ∧ s.rx.asm = .awaitingBody ∧
      ((s.env.readTick.2.recv (s.rx.need.toNat - s.rx.fill.toNat)).1.length = 40 ∧
       40 < s.rx.need.toNat - s.rx.fill.toNat) ∧
      ¬ s.cfg.sessionTimeout.toNat ≤ (s.env.readTick.1 - s.rx.last).toNat :=
  ⟨{ inBody with env := { inBody.env with grants := [40] } }, sound_inBody.env _ _ _, ⟨rfl, rfl, rfl⟩, rfl,
    by decide +kernel, by decide⟩

theorem witness_BodyBytesStoredInOrder_deadline : -- V-ASM-4 poll 4: nothing handed over, on the deadline; and in RecvHeader
    ∀ x ∈ [(RxState.recvHeader, 0#8, false), (.recvData, 1#8, true)], ∃ s, Sound s ∧ listens s x.1 ∧
      x.1.receiving = true ∧ s.rx.asm = .awaitingBody ∧
      (s.env.readTick.2.recv (s.rx.need.toNat - s.rx.fill.toNat)).1.length < s.rx.need.toNat - s.rx.fill.toNat ∧
      s.cfg.sessionTimeout.toNat ≤ (s.env.readTick.1 - s.rx.last).toNat := by
  intro x hx
  simp only [List.mem_cons, List.not_mem_nil, or_false] at hx
  let e : Env := { session.env with advances := [1000#31], arrivals := [[]], grants := [0] }
  rcases hx with rfl | rfl
  · exact ⟨{ inBodyOf .recvHeader 0#8 false with env := e }, (sound_inBodyOf (.inl ⟨rfl, rfl, rfl⟩)).env _ _ _,
      ⟨rfl, rfl, rfl⟩, rfl, rfl, by decide, by decide⟩
  · exact ⟨{ inBody with env := e }, sound_inBody.env _ _ _, ⟨rfl, rfl, rfl⟩, rfl, rfl, by decide, by decide⟩

theorem witness_TerminalActionDelivers :
    listens (receiver .recvErr 1#8 3#8 true 0#32) .recvErr ∧ listens (receiver .recvTerm 5#8 0#8 true 0#32) .recvTerm :=
  ⟨⟨rfl, rfl, rfl⟩, rfl, rfl, rfl⟩

theorem witness_receiving : -- EotReceived, CanReceivedTerminates, StraySymbolIsFramingError: each receiving state
    ∀ st ∈ [RxState.recvHeader, .recvData, .recvEotConfirm, .recvFinish], ∃ s : State,
      listens s st ∧ st.receiving = true ∧ 1 ≤ s.cfg.rxbufSize.toNat := by
  intro st hst
  exact ⟨receiver st 0#8 0#8 true 0#32, ⟨rfl, rfl, rfl⟩, by revert st; decide, by show 1 ≤ (1029#16).toNat; decide⟩

theorem witness_StraySymbolIsFramingError_illegal : -- V-RX-8c and the neighbours of the symbols
    ∀ b ∈ [0x00#8, 0x03#8, 0x42#8, 0xFF#8], ∃ s : State, listens s .recvData ∧ 1 ≤ s.cfg.rxbufSize.toNat ∧
      s.rx.asm = .awaitingSync ∧ (s.env.readTick.2.get s.cfg.charTimeout).1 = some b ∧
      b ∉ [0x01#8, 0x02#8, 0x04#8, 0x06#8, 0x15#8, 0x18#8, 0x43#8] := by
  intro b hb
  refine ⟨given (receiver .recvData 1#8 0#8 true 0#32) [1#31] [[b]], ⟨rfl, rfl, rfl⟩,
    by show 1 ≤ (1029#16).toNat; decide, rfl, rfl, ?_⟩
  revert b; decide

/-- `G` and the CRC its payload has (V-CRC-17). -/
theorem payloadS2_crc : crc16 0#16 payloadS2 = 0x43#8 ++ 0x93#8 := by
  set_option maxRecDepth 100000 in decide +kernel

set_option maxRecDepth 100000 in
theorem intact_G : intact 1#8 0xFE#8 payloadS2 0x43#8 0x93#8 := ⟨by decide, payloadS2_crc.symm⟩

set_option maxRecDepth 100000 in
theorem isFrame_G (nseq : Byte) :
    isFrame (.soh 1#8 nseq payloadS2 0x43#8 0x93#8) 1#8 nseq payloadS2 0x43#8 0x93#8 := .inl ⟨rfl, by decide⟩

set_option maxRecDepth 100000 in
theorem payloadS2_fits : payloadS2.length + 5 ≤ (1029#16).toNat := by decide

theorem witness_UnwantedFrameIsFramingError : -- a bad complement, a duplicate (V-RX-15), any frame in RecvEotConfirm
    ∀ x ∈ [(RxState.recvData, 1#8, 0xFF#8), (.recvData, 2#8, 0xFE#8), (.recvEotConfirm, 1#8, 0xFE#8)], ∃ (s : State) (i : Instr),
      isFrame i 1#8 x.2.2 payloadS2 0x43#8 0x93#8 ∧ listens s x.1 ∧ x.1.receiving = true ∧
      payloadS2.length + 5 ≤ s.cfg.rxbufSize.toNat ∧
      (¬ intact 1#8 x.2.2 payloadS2 0x43#8 0x93#8 ∨ 1#8 ≠ s.rx.seq ∨ x.1 = .recvEotConfirm) := by
  intro x hx
  refine ⟨receiver x.1 x.2.1 0#8 true 0#32, _, isFrame_G x.2.2, ⟨rfl, rfl, rfl⟩, by revert x; decide, payloadS2_fits, ?_⟩
  simp only [List.mem_cons, List.not_mem_nil, or_false] at hx
  rcases hx with rfl | rfl | rfl
  · exact .inl fun h => absurd h.1 (by decide)
  · exact .inr (.inl (by decide))
  · exact .inr (.inr rfl)

theorem witness_DataPacketReceived : -- V-RX-11, V-RX-12; RXBUF of the least legal size
    ∀ a : Bool, ∃ (s : State) (i : Instr), isFrame i 1#8 0xFE#8 payloadS2 0x43#8 0x93#8 ∧ listens s .recvData ∧
      payloadS2.length + 5 ≤ s.cfg.rxbufSize.toNat ∧ intact 1#8 0xFE#8 payloadS2 0x43#8 0x93#8 ∧ 1#8 = s.rx.seq ∧
      s.env.answers = [a] :=
  fun a => ⟨{ receiver .recvData 1#8 0#8 true 0#32 with env := { session.env with answers := [a] } }, _, isFrame_G 0xFE#8,
    ⟨rfl, rfl, rfl⟩, payloadS2_fits, intact_G, rfl, rfl⟩

set_option maxRecDepth 100000 in
theorem witness_HeaderFrameReceived : -- a payload that parses (S1), and the closing packet's, which does not (V-RX-4)
    ∀ x ∈ [(payloadS1, 0x9C#8, 0x77#8), (List.replicate 128 0#8, 0#8, 0#8)], ∀ a : Bool, ∃ (s : State) (i : Instr),
      isFrame i 0#8 0xFF#8 x.1 x.2.1 x.2.2 ∧ listens s .recvHeader ∧ x.1.length + 5 ≤ s.cfg.rxbufSize.toNat ∧
      intact 0#8 0xFF#8 x.1 x.2.1 x.2.2 ∧ 0#8 = s.rx.seq ∧ s.env.answers = [a] ∧
      (parseHeader s.par.filesizeLimit x.1 = none ∨ parseHeader s.par.filesizeLimit x.1 = some (payloadS1.take 8, 4)) := by
  intro x hx a
  refine ⟨{ receiver .recvHeader 0#8 0#8 false 0#32 with env := { session.env with answers := [a] } },
    .soh 0#8 0xFF#8 x.1 x.2.1 x.2.2, ?_⟩
  simp only [List.mem_cons, List.not_mem_nil, or_false] at hx
  rcases hx with rfl | rfl
  · exact ⟨.inl ⟨rfl, by decide⟩, ⟨rfl, rfl, rfl⟩, by show 128 + 5 ≤ (1029#16).toNat; decide, ⟨by decide, by decide +kernel⟩,
      rfl, rfl, .inr (by show parseHeader 4294967295 payloadS1 = _; decide +kernel)⟩
  · exact ⟨.inl ⟨rfl, by decide⟩, ⟨rfl, rfl, rfl⟩, by show 128 + 5 ≤ (1029#16).toNat; decide, ⟨by decide, by decide +kernel⟩,
      rfl, rfl, .inl (by show parseHeader 4294967295 (List.replicate 128 0#8) = _; decide +kernel)⟩

set_option maxRecDepth 100000 in
theorem witness_ClosingFrameReceived : -- V-RX-23 and, with the payload of S1, V-RX-24
    ∀ x ∈ [(0x74#8, payloadS1.drop 1, 0x9C#8, 0x77#8), (0#8, List.replicate 127 0#8, 0#8, 0#8)], ∃ (s : State) (i : Instr),
      isFrame i 0#8 0xFF#8 (x.1 :: x.2.1) x.2.2.1 x.2.2.2 ∧ listens s .recvFinish ∧
      (x.1 :: x.2.1).length + 5 ≤ s.cfg.rxbufSize.toNat ∧ intact 0#8 0xFF#8 (x.1 :: x.2.1) x.2.2.1 x.2.2.2 ∧ 0#8 = s.rx.seq := by
  intro x hx
  refine ⟨receiver .recvFinish 0#8 0#8 true 0#32, .soh 0#8 0xFF#8 (x.1 :: x.2.1) x.2.2.1 x.2.2.2, ?_⟩
  simp only [List.mem_cons, List.not_mem_nil, or_false] at hx
  rcases hx with rfl | rfl
  · exact ⟨.inl ⟨rfl, by decide⟩, ⟨rfl, rfl, rfl⟩, by show 128 + 5 ≤ (1029#16).toNat; decide, ⟨by decide, by decide +kernel⟩, rfl⟩
  · exact ⟨.inl ⟨rfl, by decide⟩, ⟨rfl, rfl, rfl⟩, by show 128 + 5 ≤ (1029#16).toNat; decide, ⟨by decide, by decide +kernel⟩, rfl⟩

theorem witness_UnreadUnitStaysPending :
    Instr.ack.isWire = true ∧ deaf session ∧ deaf (receiver .recvErr 0#8 0#8 true 0#32) ∧ deaf (sender .data false) :=
  ⟨rfl, .inr ⟨rfl, .inl rfl⟩, .inr ⟨rfl, .inr (.inl rfl)⟩, .inl ⟨by decide, rfl⟩⟩

set_option maxRecDepth 10000 in
theorem witness_SendFileBegins : -- V-HDR-9: the longest header payload; a file of exactly `size` bytes
    (listens session .idle ∧ 0x00#8 ∉ [0x61#8] ∧ 1 ≤ 1 ∧ 1 < session.par.filesizeLimit ∧
      [0x61#8].length + 1 + (decimal 1).length ≤ 128 ∧ 1 ≤ [0x5A#8].length) ∧
    (0x00#8 ∉ List.replicate 120 0x6E#8 ∧ (List.replicate 120 0x6E#8).length + 1 + (decimal 1234567).length ≤ 128 ∧
      1234567 < session.par.filesizeLimit) :=
  ⟨⟨⟨rfl, rfl, rfl⟩, by decide, by decide, by decide, by decide, by decide⟩, by decide +kernel, by decide +kernel, by decide⟩

set_option maxRecDepth 10000 in
theorem witness_SendFileRefused : -- V-INI-11, V-INI-15 and the bounds of R237, each exceeded by one
    (session.inited = true ∧ session.tx.phase = .txIdle ∧ session.rx.state = .idle) ∧
    ((receiver .recvData 0#8 0#8 true 0#32).inited = true ∧ (receiver .recvData 0#8 0#8 true 0#32).tx.phase = .txIdle ∧
      (receiver .recvData 0#8 0#8 true 0#32).rx.state ≠ .idle) ∧
    0x00#8 ∈ [0x61#8, 0x00#8] ∧ session.par.filesizeLimit ≤ 4294967295 ∧
    128 < (List.replicate 121 0x6E#8).length + 1 + (decimal 1234567).length ∧ [0x5A#8].length < 2 :=
  ⟨⟨rfl, rfl, rfl⟩, ⟨rfl, rfl, by decide⟩, by decide, by decide, by decide +kernel, by decide⟩

theorem witness_ShortAttemptBegins :
    ∀ p ∈ [TxPhase.waitC1, .waitC2, .waitC3, .eotA, .eotB], ∃ s : State, s.tx.phase = p ∧ s.tx.waiting = false ∧
      s.tx.attempt.toNat < s.par.txRetryLimit.toNat :=
  fun p _ => ⟨sender p false, rfl, rfl, by show (0#8).toNat < (10#8).toNat; decide⟩

theorem witness_FrameAttemptBegins : ∀ p ∈ [TxPhase.header, .data, .closing], ∃ s : State, Sound s ∧ s.tx.phase = p ∧
    s.tx.waiting = false ∧ s.tx.attempt.toNat < s.par.txRetryLimit.toNat :=
  fun p hp => ⟨sender p false, sound_sender p false (by rintro rfl; simp at hp), rfl, rfl,
    by show (0#8).toNat < (10#8).toNat; decide⟩

theorem witness_ExhaustedBudgetFails : ∃ s : State, s.tx.phase ≠ .txIdle ∧ s.tx.waiting = false ∧
    s.par.txRetryLimit.toNat ≤ s.tx.attempt.toNat :=
  ⟨{ sender .data false with tx := { (sender .data false).tx with attempt := 10#8 } }, by decide, rfl, by decide⟩

theorem witness_awaits : -- AckAdvancesTheRun, NakInAWait, CanEndsTheRun: each phase
    ∀ p, p ≠ .txIdle → awaits (sender p true) p := fun _ hp => ⟨rfl, hp, rfl⟩

theorem witness_WaitForCSucceeds : ∀ p ∈ [TxPhase.waitC1, .waitC2, .waitC3], ∃ s : State, awaits s p ∧
    (p = .waitC1 ∨ p = .waitC2 ∨ p = .waitC3) ∧
    (s.tx.name ++ 0x00#8 :: decimal s.tx.size).length ≤ s.cfg.txbufSize.toNat := by
  intro p hp
  exact ⟨sender p true, ⟨rfl, by rintro rfl; simp at hp, rfl⟩, by simpa using hp,
    by show ([0x61#8] ++ 0x00#8 :: decimal 2).length ≤ (128#16).toNat; decide⟩

theorem witness_OtherSymbolIsDropped : -- ACK in EotA; the wait goes on at 99 ticks and ends at 100 (V-TX-W5)
    ∀ d ∈ [99#31, 100#31], ∃ s : State, awaits s .eotA ∧
      (s.cfg.ackTimeout.toNat ≤ (s.env.readTick.1 - s.tx.t0).toNat ↔ d = 100#31) := by
  intro d hd
  refine ⟨given (sender .eotA true) [d] [], ⟨rfl, by decide, rfl⟩, ?_⟩
  show (100#32).toNat ≤ (0#32 + d.setWidth 32 - 0#32).toNat ↔ d = 100#31
  simp only [List.mem_cons, List.not_mem_nil, or_false] at hd
  rcases hd with rfl | rfl <;> decide

theorem witness_FrameInAWaitIsReadBytewise : ∃ (s : State) (i : Instr), awaits s .header ∧
    isFrame i 1#8 0xFE#8 payloadS2 0x43#8 0x93#8 := ⟨sender .header true, _, ⟨rfl, by decide, rfl⟩, isFrame_G 0xFE#8⟩

theorem witness_StepKeepsInvariant : -- and NoAccessOutsideASpace
    Sound session ∧ step session = .next session := ⟨sound_session, rfl⟩

theorem witness_RxStepPortDiscipline : -- and StatusTellsOnFinish, status 0
    ∃ t, exec .rxStep session = .next t ∧ t.result = .status .noEvent := ⟨_, rfl, rfl⟩

theorem witness_StatusTellsOnFinish_failure :
    ∃ t, exec .rxStep (receiver .recvErr 1#8 3#8 true 0#32) = .next t ∧ t.result = .status .failure := ⟨_, rfl, rfl⟩

/-- RecvFinish with the closing packet in the body, all but its sync byte on the link (V-RX-23). -/
def closingInBody : State := { inBody with
  rx := { inBody.rx with state := .recvFinish, seq := 0#8 }
  env := { inBody.env with linkIn := 0x00#8 :: 0xFF#8 :: List.replicate 130 0x00#8, grants := [132] } }

set_option maxRecDepth 100000 in
theorem witness_StatusTellsOnFinish_success : -- and ActiveWrittenByItsEvents, 1 to 0
    ∃ t, exec .rxStep closingInBody = .next t ∧
      (t.result = .status .success ∧ closingInBody.rx.active = true ∧ t.rx.active = false) := by
  have h : after (exec .rxStep closingInBody) (fun t => t.result = .status .success && t.rx.active = false) = true := by
    decide +kernel
  obtain ⟨t, h1, h2⟩ := next_of_after h
  refine ⟨t, h1, ?_⟩
  simp only [Bool.and_eq_true, decide_eq_true_eq] at h2
  exact ⟨h2.1, rfl, h2.2⟩

/-- RecvHeader with the header packet of S1 in the body; the consumer will accept; an RX_STEP is requested. -/
def headerInBody : State := { inBody with
  rx := { inBody.rx with state := .recvHeader, seq := 0#8, active := false }
  env := { inBody.env with
    linkIn := 0x00#8 :: 0xFF#8 :: (payloadS1 ++ [0x9C#8, 0x77#8]), grants := [132], answers := [true]
    requests := [{ code := 0b010#3 }] } }

set_option maxRecDepth 100000 in
theorem witness_ActiveWrittenByItsEvents :
    ∃ t, step headerInBody = .next t ∧ headerInBody.rx.active = false ∧ t.rx.active = true := by
  have h : after (step headerInBody) (fun t => t.rx.active) = true := by decide +kernel
  obtain ⟨t, h1, h2⟩ := next_of_after h
  exact ⟨t, h1, rfl, h2⟩

theorem witness_SenderPortDiscipline : -- an attempt that puts one EOT
    (sender .eotA false).tx.phase ≠ .txIdle ∧ ∃ t, step (sender .eotA false) = .next t ∧ t.env.linkOut = [0x04#8] :=
  ⟨by decide, _, rfl, rfl⟩

theorem witness_RunFollowsTheProcedure : -- the step of a phase, and the end by a CAN
    (∃ t, step (given (sender .waitC1 true) [] [[0x43#8]]) = .next t ∧ t.tx.phase = .header) ∧
    (∃ t, step (given (sender .waitC1 true) [] [[0x18#8]]) = .next t ∧ t.tx.phase = .txIdle) :=
  ⟨⟨_, rfl, rfl⟩, _, rfl, rfl⟩

theorem witness_SilentPeerFailsAfterHeaderRetries : ∃ s : State,
    Sound s ∧ s.tx.phase = .header ∧ s.tx.attempt = 0#8 ∧ s.tx.waiting = false ∧ s.env.linkIn = [] ∧
    s.cfg.ackTimeout.toNat ≤ (100#31).toNat ∧
    s.env.advances = List.replicate (2 * s.par.txRetryLimit.toNat) 100#31 ++ [] ∧
    s.env.arrivals = List.replicate s.par.txRetryLimit.toNat [] ++ [] :=
  ⟨given (sender .header false) (List.replicate 20 100#31) (List.replicate 10 []),
    (sound_sender .header false (by decide)).env _ _ _, rfl, rfl, rfl, rfl, by decide, rfl, rfl⟩

end Sys2Proof.Tests
end

/-! # 10_state.md: reset, INIT, who writes what, the invariant

What a step that answers can have done is said once: `HostNext` for the host operations, `RxNext` for RX_STEP, `StepNext` for
the whole machine. Each statement about every step is then a case analysis on them. -/

namespace Sys2Proof.Machine

/-! ### What a host operation that answers has done (30_encoding.md R103) -/

/-- The configuration registers an INIT with these operands writes (R32, R52). -/
def Cfg.ofOperands (st tk ct : Word) (u : Nat) (rs ts : Half) : Cfg where
  sessionTimeout := st
  ackTimeout := tk
  charTimeout := ct
  use1k := decide (u = 1)
  rxbufSize := rs
  txbufSize := ts

/-- The state in which a SEND_FILE run begins (R230, R236). -/
def State.beginSend (s : State) (name : List Byte) (size : Nat) (file : List Byte) : State :=
  { s with tx := { s.tx with name := name, size := size, file := file }, result := .none }.txEnter .waitC1

/-- The state `t` is what host operation `i`, run in `s`, can answer at most. CRC16, VALIDATE and ENCODE are one case: they
write CRC_ACC, the environment and the result port only (40_crc16.md R134, 41_codec.md R147, R153). -/
inductive HostNext (s : State) : Instr → State → Prop where
  | init (st tk ct : Word) (u : Nat) (rs ts : Half) (legal : configLegal st tk ct u rs ts = true) :
      HostNext s (.init st tk ct u rs ts) (s.initialise (Cfg.ofOperands st tk ct u rs ts))
  | rxStep {t : State} (inited : s.inited = true) (answer : s.rxStep = .next t) : HostNext s .rxStep t
  | sendFile (name : List Byte) (size : Nat) (file : List Byte) (inited : s.inited = true) (idle : s.rx.state = .idle)
      (adm : admissible s.par.filesizeLimit name size file = true) :
      HostNext s (.sendFile name size file) (s.beginSend name size file)
  | leaf (i : Instr) (env : Env) (acc : Half) (r : Result) :
      HostNext s i { s with env := env, crcAcc := acc, result := r }

/-- An operation that answers was admitted: no run was in progress (R320). -/
theorem State.free_next {s t : State} {k : Out} (h : s.free k = .next t) : s.tx.phase = .txIdle ∧ k = .next t := by
  unfold State.free at h
  split at h
  · exact ⟨‹_›, h⟩
  · cases h

/-- INIT with legal operands, outside a run (R52, R313). -/
theorem execInit_eq {s : State} (hp : s.tx.phase = .txIdle) {st tk ct : Word} {u : Nat} {rs ts : Half}
    (hl : configLegal st tk ct u rs ts = true) :
    execInit st tk ct u rs ts s = .next (s.initialise (Cfg.ofOperands st tk ct u rs ts)) := by
  unfold execInit State.free
  rw [if_pos hp, if_pos hl]
  rfl

/-- INIT answers only with legal operands (R313). -/
theorem execInit_next {s t : State} {st tk ct : Word} {u : Nat} {rs ts : Half}
    (h : execInit st tk ct u rs ts s = .next t) :
    s.tx.phase = .txIdle ∧ HostNext s (.init st tk ct u rs ts) t := by
  obtain ⟨hp, hk⟩ := State.free_next h
  refine ⟨hp, ?_⟩
  split at hk
  · cases hk
    exact .init st tk ct u rs ts ‹_›
  · cases hk

/-- RX_STEP answers only after an INIT (R312). -/
theorem execRxStep_next {s t : State} (h : execRxStep s = .next t) : s.tx.phase = .txIdle ∧ HostNext s .rxStep t := by
  unfold execRxStep at h
  split at h
  · obtain ⟨hp, hk⟩ := State.free_next h
    exact ⟨hp, .rxStep ‹_› hk⟩
  · cases h

/-- SEND_FILE answers only after an INIT, in Idle, with admissible operands (R312, R320, R237). -/
theorem execSendFile_next {s t : State} {name file : List Byte} {size : Nat}
    (h : execSendFile name size file s = .next t) :
    s.tx.phase = .txIdle ∧ HostNext s (.sendFile name size file) t := by
  unfold execSendFile at h
  split at h
  · obtain ⟨hp, hk⟩ := State.free_next h
    refine ⟨hp, ?_⟩
    split at hk
    · split at hk
      · cases hk
        exact .sendFile name size file ‹_› ‹_› ‹_›
      · cases hk
    · cases hk
  · cases h

/-- CRC16 writes CRC_ACC and its result (R134). -/
theorem execCrc16_next {s t : State} {seed : Half} {data : List Byte} {len : Nat}
    (h : execCrc16 seed data len s = .next t) : s.tx.phase = .txIdle ∧ HostNext s (.crc16 seed data len) t := by
  obtain ⟨hp, hk⟩ := State.free_next h
  obtain ⟨more, draws, ho, -⟩ := s.operand_spec data len
  rw [ho] at hk
  cases hk
  exact ⟨hp, .leaf _ _ _ _⟩

/-- VALIDATE writes CRC_ACC and its verdict (R147). -/
theorem execValidate_next {s t : State} {buf : List Byte} {len : Nat} {exp : Byte}
    (h : execValidate buf len exp s = .next t) : s.tx.phase = .txIdle ∧ HostNext s (.validate buf len exp) t := by
  obtain ⟨hp, hk⟩ := State.free_next h
  obtain ⟨more, draws, ho, -⟩ := s.operand_spec buf len
  rw [ho] at hk
  cases hk
  exact ⟨hp, .leaf _ _ _ _⟩

/-- ENCODE puts its frame and writes CRC_ACC (R149, R153). -/
theorem execEncode_next {s t : State} {header seq fill : Byte} {payload : List Byte} {len : Nat}
    (h : execEncode header seq fill payload len s = .next t) :
    s.tx.phase = .txIdle ∧ HostNext s (.encode header seq fill payload len) t := by
  obtain ⟨hp, hk⟩ := State.free_next h
  refine ⟨hp, ?_⟩
  split at hk
  · cases hk
  · split at hk
    · obtain ⟨more, draws, ho, -⟩ := s.operand_spec payload len
      rw [ho] at hk
      cases hk
      exact .leaf _ _ _ _
    · cases hk

/-- A host operation that answers ran outside a run, and did what `HostNext` says. -/
theorem exec_host_next {s t : State} {i : Instr} (hw : i.isWire = false) (h : exec i s = .next t) :
    s.tx.phase = .txIdle ∧ HostNext s i t := by
  cases i with
  | soh | stx | eot | ack | nak | can | c => cases hw
  | init st tk ct u rs ts => exact execInit_next h
  | rxStep => exact execRxStep_next h
  | sendFile name size file => exact execSendFile_next h
  | crc16 seed data len => exact execCrc16_next h
  | validate buf len exp => exact execValidate_next h
  | encode header seq fill payload len => exact execEncode_next h

/-! ### What an RX_STEP that answers has done (42_receiver.md R170, R171) -/

/-- The state `t` is what RX_STEP, inside its domain in `s`, can answer; `u` is the state the assembler's one action leaves. -/
inductive RxNext (s : State) : State → Prop where
  /-- Row T1. -/
  | opened {t : State} (idle : s.rx.state = .idle) (answer : s.latchTick.idleAction = .next t) : RxNext s t
  /-- The terminal action (R281). -/
  | delivered {t : State} (pre : s.rx.state = .recvErr ∨ s.rx.state = .recvTerm)
      (answer : s.latchTick.terminalAction = .next t) : RxNext s t
  /-- A candidate was complete, and one row acted on it (R178). -/
  | judged {u : State} {acc : Half} {rx : Rx} {env : Env} {r : Result} (receiving : s.rx.state.receiving = true)
      (assembled : s.latchTick.assemble = .ok (true, u)) (row : Row u rx env r) : RxNext s (u.afterRow acc rx env r)
  /-- No candidate, and the deadline was acted on (R185). -/
  | late {u t : State} (receiving : s.rx.state.receiving = true) (assembled : s.latchTick.assemble = .ok (false, u))
      (answer : u.deadlineAction = .next t) : RxNext s t
  /-- No candidate, before the deadline. -/
  | waited {u : State} (receiving : s.rx.state.receiving = true) (assembled : s.latchTick.assemble = .ok (false, u)) :
      RxNext s { u with result := .status .noEvent }

/-- The assembler's action leaves the setting and every register but its own. -/
theorem State.assemble_keeps {s u : State} {done : Bool} (h : s.assemble = .ok (done, u)) :
    u.par = s.par ∧ u.cfg = s.cfg ∧ u.rx.state = s.rx.state ∧ u.rx.active = s.rx.active := by
  obtain ⟨_, _, _, _, _, hu, -⟩ := State.assemble_frame h
  rw [hu]
  exact ⟨rfl, rfl, rfl, rfl⟩

theorem State.rxStep_next {s t : State} (h : s.rxStep = .next t) : RxNext s t := by
  rcases s.rxStep_cases with ⟨hs, e⟩ | ⟨hs, e⟩ |
    ⟨hr, ⟨f, -, e⟩ | ⟨u, ha, e⟩ | ⟨u, ha, -, e⟩ | ⟨u, ha, -, e⟩⟩ <;> rw [e] at h
  · exact .opened hs h
  · exact .delivered hs h
  · cases h
  · have hru : u.rx.state.receiving = true := by
      obtain ⟨-, -, hst, -⟩ := State.assemble_keeps ha
      rw [hst]; exact hr
    obtain ⟨acc, rx, env, r, hrow, hj⟩ := u.judge_row hru
    rw [hj] at h
    cases h
    exact .judged hr ha hrow
  · exact .late hr ha h
  · cases h
    exact .waited hr ha

/-- No RX_STEP writes the parameters or the configuration (R32). -/
theorem RxNext.keeps_setting {s t : State} (h : RxNext s t) : t.par = s.par ∧ t.cfg = s.cfg := by
  cases h with
  | opened _ answer => rw [State.idleAction_eq] at answer; cases answer; exact ⟨rfl, rfl⟩
  | delivered _ answer => rw [State.terminalAction_eq] at answer; cases answer; exact ⟨rfl, rfl⟩
  | judged _ assembled _ =>
    obtain ⟨hpar, hcfg, -⟩ := State.assemble_keeps assembled
    exact ⟨hpar, hcfg⟩
  | late receiving assembled answer =>
    obtain ⟨hpar, hcfg, hst, -⟩ := State.assemble_keeps assembled
    obtain ⟨-, hcfg', hpar', -⟩ := State.deadlineAction_next (by rw [hst]; exact receiving) answer
    exact ⟨hpar'.trans hpar, hcfg'.trans hcfg⟩
  | waited _ assembled =>
    obtain ⟨hpar, hcfg, -⟩ := State.assemble_keeps assembled
    exact ⟨hpar, hcfg⟩

/-! ### What a step of a run leaves alone (43_sender.md R252) -/

theorem sameReceiver_refl (s : State) : sameReceiver s s := ⟨rfl, rfl, rfl, rfl, rfl⟩

/-- The start of an attempt. -/
theorem State.txBegin_sameReceiver {s t : State} (hp : s.tx.phase ≠ .txIdle) (h : s.txBegin = .next t) :
    sameReceiver s t := by
  rcases s.txBegin_cases hp with ⟨-, e⟩ | ⟨-, ⟨-, e⟩ | ⟨-, e⟩ | ⟨-, e⟩ | ⟨-, e⟩ | ⟨-, -, e⟩ | ⟨-, -, e⟩⟩ <;>
    rw [e] at h <;> cases h <;> exact sameReceiver_refl s

/-- The next step of the procedure. -/
theorem State.txAdvance_sameReceiver {s t : State} (h : s.txAdvance = .next t) : sameReceiver s t := by
  have nextData : ∀ seq off, sameReceiver s ({ s with tx := { s.tx with seq := seq, off := off } } : State).txNextData := by
    intro seq off
    rcases State.txNextData_cases { s with tx := { s.tx with seq := seq, off := off } } with ⟨-, e⟩ | ⟨-, e⟩ <;> rw [e] <;>
      exact sameReceiver_refl s
  unfold State.txAdvance at h
  cases hph : s.tx.phase <;> rw [hph] at h <;> dsimp only at h
  case waitC1 =>
    unfold State.txBuildHeader at h
    split at h <;> cases h
    exact sameReceiver_refl s
  case waitC2 | data => cases h; exact nextData _ _
  all_goals cases h; exact sameReceiver_refl s

/-- The time test of a wait. -/
theorem State.txTimeTest_sameReceiver (s : State) : sameReceiver s s.txTimeTest := by
  obtain ⟨w, e⟩ := s.txTimeTest_frame
  rw [e]
  exact sameReceiver_refl s

/-- A byte read in a wait. -/
theorem State.txByte_sameReceiver {s t : State} {b : Byte} (h : s.txByte b = .next t) : sameReceiver s t := by
  rcases s.txByte_cases b with ⟨-, e⟩ | ⟨-, -, -, e⟩ | ⟨-, -, -, e⟩ | ⟨-, -, e⟩ <;> rw [e] at h
  · cases h; exact sameReceiver_refl s
  · exact State.txAdvance_sameReceiver h
  · cases h; exact sameReceiver_refl s
  · cases h; exact s.txTimeTest_sameReceiver

/-- Every step of a run leaves the parameters, the configuration and the receiver alone (R252, R320). -/
theorem step_run_sameReceiver {s t : State} (hp : s.tx.phase ≠ .txIdle) (h : step s = .next t) : sameReceiver s t := by
  cases hw : s.tx.waiting with
  | false =>
    rw [step_begin s hp hw] at h
    exact State.txBegin_sameReceiver hp h
  | true =>
    rw [step_wait s hp hw] at h
    cases hg : (s.env.get s.cfg.charTimeout).1 with
    | none =>
      rw [hg] at h
      cases h
      exact State.txTimeTest_sameReceiver { s with env := (s.env.get s.cfg.charTimeout).2 }
    | some b =>
      rw [hg] at h
      exact State.txByte_sameReceiver (s := { s with env := (s.env.get s.cfg.charTimeout).2 }) h

/-! ### What a step that answers has done -/

/-- The state `t` is what a step from `s` can answer at most: the frame that every step keeps. -/
inductive StepNext (s : State) : State → Prop where
  /-- No operation was asked for; a request of code 000 may have been taken (R103). -/
  | idle (env : Env) (outside : s.tx.phase = .txIdle) : StepNext s { s with env := env }
  /-- The host's next request was run. -/
  | operation {t : State} {q : Command} {rest : List Command} {i : Instr} (outside : s.tx.phase = .txIdle)
      (request : s.env.requests = q :: rest) (decoded : decodeCommand q = .ok i)
      (answer : HostNext (s.takeRequest rest) i t) : StepNext s t
  /-- A run went on or ended. -/
  | run {t : State} (inside : s.tx.phase ≠ .txIdle) (kept : sameReceiver s t) : StepNext s t

theorem step_next {s t : State} (h : step s = .next t) : StepNext s t := by
  by_cases hp : s.tx.phase = .txIdle
  · rcases step_request s hp with ⟨-, e⟩ | ⟨q, rest, hq, ⟨i, hd, e⟩ | ⟨-, e⟩ | ⟨r, -, -, e⟩⟩ <;> rw [e] at h
    · cases h; exact .idle s.env hp
    · obtain ⟨hw, -⟩ := decodeCommand_host hd
      obtain ⟨-, hn⟩ := exec_host_next hw h
      exact .operation hp hq hd hn
    · cases h; exact .idle _ hp
    · cases h
  · exact .run hp (step_run_sameReceiver hp h)

/-! ### The invariant, operation by operation -/

/-- Legal operands make a legal configuration (R32, R313). -/
theorem cfgSound_ofOperands {st tk ct : Word} {u : Nat} {rs ts : Half} (h : configLegal st tk ct u rs ts = true) :
    cfgSound (Cfg.ofOperands st tk ct u rs ts) := by
  obtain ⟨-, -, -, hu, -⟩ := (configLegal_iff _ _ _ _ _ _).1 h
  have huse : (if decide (u = 1) = true then 1 else 0) = u := by
    by_cases h1 : u = 1
    · simp [h1]
    · have h0 : u = 0 := by omega
      simp [h0]
  show configLegal st tk ct (if decide (u = 1) = true then 1 else 0) rs ts = true
  rw [huse]
  exact h

/-- A run begins sound: admissible operands, no attempt made yet, the receiver in Idle (R237, R320). -/
theorem State.beginSend_sound {s : State} (h : Sound s) {name file : List Byte} {size : Nat} (inited : s.inited = true)
    (idle : s.rx.state = .idle) (adm : admissible s.par.filesizeLimit name size file = true) :
    Sound (s.beginSend name size file) := by
  refine Sound.of_tx h rfl rfl rfl rfl rfl h.txbuf (.inr ⟨by simp [State.beginSend], ?_⟩)
  exact ⟨inited, idle, adm, Nat.zero_le _, nofun, nofun, nofun⟩

/-- Every host operation that answers keeps the invariant. -/
theorem HostNext.sound {s t : State} {i : Instr} (hp : s.tx.phase = .txIdle) (h : Sound s) (hn : HostNext s i t) :
    Sound t := by
  cases hn with
  | init _ _ _ _ _ _ legal => exact State.initialise_sound h (cfgSound_ofOperands legal)
  | rxStep inited answer =>
    obtain ⟨t', ht', hsound⟩ := State.rxStep_sound h inited
    rw [ht'] at answer
    cases answer
    exact hsound hp
  | sendFile _ _ _ inited idle adm => exact State.beginSend_sound h inited idle adm
  | leaf _ env acc r => exact h.env env acc r

/-- Every step of a run keeps the invariant, and none faults (R66). -/
theorem step_run_sound {s : State} (h : Sound s) (hp : s.tx.phase ≠ .txIdle) : ∃ t, step s = .next t ∧ Sound t := by
  cases hw : s.tx.waiting with
  | false => rw [step_begin s hp hw]; exact State.txBegin_sound h hp
  | true =>
    have hread : Sound { s with env := (s.env.get s.cfg.charTimeout).2 } := h.env _ s.crcAcc s.result
    rw [step_wait s hp hw]
    cases (s.env.get s.cfg.charTimeout).1 with
    | none =>
      obtain ⟨w, e⟩ := State.txTimeTest_frame { s with env := (s.env.get s.cfg.charTimeout).2 }
      exact ⟨_, rfl, by rw [e]; exact Sound.waiting hread hp hw _ _⟩
    | some b => exact State.txByte_sound hread hp hw b

/-- Settles O53. Outside a run the step's operation keeps the invariant, inside one the procedure does. -/
theorem stepKeepsInvariant : Obligations.StepKeepsInvariant := by
  intro s t h hstep
  by_cases hp : s.tx.phase = .txIdle
  · cases step_next hstep with
    | idle env _ => exact h.env env s.crcAcc s.result
    | @operation _ _ rest _ _ _ _ answer =>
      have taken : Sound (s.takeRequest rest) := h.env _ s.crcAcc s.result
      exact HostNext.sound (s := s.takeRequest rest) hp taken answer
    | run inside _ => exact absurd hp inside
  · obtain ⟨t', ht', hsound⟩ := step_run_sound h hp
    rw [ht'] at hstep
    cases hstep
    exact hsound

/-! ### INIT -/

/-- Settles O23: the state INIT answers is `State.initialise`, read field by field. -/
theorem initRestartsTheSession : Obligations.InitRestartsTheSession := by
  intro s st tk ct u rs ts hp hst hst' htk htk' hct hu hrs hts
  have legal : configLegal st tk ct u rs ts = true :=
    (configLegal_iff _ _ _ _ _ _).2 ⟨⟨hst, hst'⟩, ⟨htk, htk'⟩, hct, hu, hrs, hts⟩
  have quiet : did s (s.initialise (Cfg.ofOperands st tk ct u rs ts)) [] :=
    ⟨(List.append_nil _).symm, (List.append_nil _).symm⟩
  exact ⟨_, execInit_eq hp legal, rfl, rfl, rfl, rfl, rfl, rfl, rfl, rfl, rfl, rfl, rfl, rfl, rfl, rfl, rfl, rfl, rfl, rfl,
    rfl, quiet, ⟨rfl, rfl, rfl, rfl, rfl, rfl⟩, rfl⟩

/-! ### Who writes the configuration -/

/-- A host operation leaves the parameters, and all but INIT leave the configuration (R32). -/
theorem HostNext.keeps_setting {s t : State} {i : Instr} (h : HostNext s i t) :
    t.par = s.par ∧ (t.cfg = s.cfg ∨ ∃ st tk ct u rs ts, i = .init st tk ct u rs ts) := by
  cases h with
  | init st tk ct u rs ts _ => exact ⟨rfl, .inr ⟨st, tk, ct, u, rs, ts, rfl⟩⟩
  | rxStep _ answer =>
    obtain ⟨hpar, hcfg⟩ := (State.rxStep_next answer).keeps_setting
    exact ⟨hpar, .inl hcfg⟩
  | sendFile | leaf => exact ⟨rfl, .inl rfl⟩

/-- Settles O27. -/
theorem configurationWrittenOnlyByInit : Obligations.ConfigurationWrittenOnlyByInit := by
  intro s t h
  cases step_next h with
  | idle => exact ⟨rfl, .inl rfl⟩
  | @operation _ q rest _ outside request decoded answer =>
    obtain ⟨hpar, hcfg | hinit⟩ := answer.keeps_setting
    · exact ⟨hpar, .inl hcfg⟩
    · exact ⟨hpar, .inr ⟨outside, q, rest, request, (decodeCommand_host decoded).2 hinit⟩⟩
  | run _ kept =>
    obtain ⟨hpar, hcfg, -⟩ := kept
    exact ⟨hpar, .inl hcfg⟩

/-! ### Who writes ACTIVE -/

/-- What writing ACTIVE in an RX_STEP comes with: from 0 to 1 the acceptance of a header packet, from 1 to 0 the successful
finish or the terminal action (R29). -/
structure ActiveEvents (s t : State) : Prop where
  set : s.rx.active = false → t.rx.active = true →
    s.rx.state = .recvHeader ∧ t.rx.state = .recvData ∧
    ∃ calls name size, t.env.trace = s.env.trace ++ calls ++ [.onHeader name size true, .put 0x06#8, .put 0x43#8]
  cleared : s.rx.active = true → t.rx.active = false → t.rx.state = .idle ∧
    ((s.rx.state = .recvFinish ∧ t.result = .status .success) ∨
     ((s.rx.state = .recvErr ∨ s.rx.state = .recvTerm) ∧ t.result = .status .failure))

/-- Where ACTIVE stays as it was nothing is claimed. -/
theorem ActiveEvents.of_same {s t : State} (h : t.rx.active = s.rx.active) : ActiveEvents s t :=
  ⟨fun h0 h1 => by simp [h, h0] at h1, fun h1 h0 => by simp [h, h1] at h0⟩

/-- Of the rows that act on a candidate only T6 sets ACTIVE and only T23 clears it. -/
theorem Row.active {s : State} {rx : Rx} {env : Env} {r : Result} (h : Row s rx env r) :
    rx.active = s.rx.active ∨
    (s.rx.state = .recvHeader ∧ rx.state = .recvData ∧ rx.active = true ∧
      ∃ name size, env.trace = s.env.trace ++ [.onHeader name size true, .put 0x06#8, .put 0x43#8]) ∨
    (s.rx.state = .recvFinish ∧ rx.state = .idle ∧ rx.active = false ∧ r = .status .success) := by
  cases h with
  | headerAccepted name size hs => exact .inr (.inl ⟨hs, rfl, rfl, name, size, by simp⟩)
  | closed hs => exact .inr (.inr ⟨hs, rfl, rfl, rfl⟩)
  | framing => exact .inl (Rx.afterNak_active _ _)
  | can | unparsable | headerRejected | dataAccepted | dataRejected | firstEot | secondEot | moreFiles => exact .inl rfl

/-- The record after the one Tick() and the one link read of a poll (R172, R180). -/
theorem State.assemble_trace {s u : State} {done : Bool} (h : s.latchTick.assemble = .ok (done, u)) :
    ∃ calls, u.env.trace = s.env.trace ++ calls := by
  obtain ⟨_, _, _, _, call, -, htrace, -⟩ := State.assemble_frame h
  exact ⟨[.tick s.env.readTick.1, call], by simp [htrace]⟩

theorem RxNext.activeEvents {s t : State} (h : RxNext s t) : ActiveEvents s t := by
  cases h with
  | opened _ answer => rw [State.idleAction_eq] at answer; cases answer; exact .of_same rfl
  | delivered pre answer =>
    rw [State.terminalAction_eq] at answer
    cases answer
    exact ⟨nofun, fun _ _ => ⟨rfl, .inr ⟨pre, rfl⟩⟩⟩
  | @judged u _ rx env r _ assembled row =>
    obtain ⟨-, -, hst, hact⟩ := State.assemble_keeps assembled
    obtain ⟨calls, htrace⟩ := State.assemble_trace assembled
    rcases row.active with same | ⟨hs, hs', hset, name, size, hrow⟩ | ⟨hs, hs', hclear, rfl⟩
    · exact .of_same (same.trans hact)
    · exact ⟨fun _ _ => ⟨hst ▸ hs, hs', calls, name, size, by rw [← htrace]; exact hrow⟩,
        fun _ h0 => absurd (hset.symm.trans h0) nofun⟩
    · exact ⟨fun _ h1 => absurd (hclear.symm.trans h1) nofun, fun _ _ => ⟨hs', .inl ⟨hst ▸ hs, rfl⟩⟩⟩
  | late receiving assembled answer =>
    obtain ⟨-, -, hst, hact⟩ := State.assemble_keeps assembled
    obtain ⟨-, -, -, ⟨-, -, hrx⟩ | ⟨-, hrx⟩⟩ := State.deadlineAction_next (by rw [hst]; exact receiving) answer
    · exact .of_same (by rw [hrx]; exact hact)
    · exact .of_same (by rw [hrx, Rx.afterNak_active]; exact hact)
  | waited _ assembled =>
    obtain ⟨-, -, -, hact⟩ := State.assemble_keeps assembled
    exact .of_same hact

/-- Every other host operation but INIT leaves ACTIVE alone. -/
theorem HostNext.activeEvents {s t : State} {i : Instr} (h : HostNext s i t) :
    ActiveEvents s t ∨
    (t.rx.active = false ∧ t.rx.state = .idle ∧ ∃ st tk ct u rs ts, i = .init st tk ct u rs ts) := by
  cases h with
  | init st tk ct u rs ts _ => exact .inr ⟨rfl, rfl, st, tk, ct, u, rs, ts, rfl⟩
  | rxStep _ answer => exact .inl (State.rxStep_next answer).activeEvents
  | sendFile | leaf => exact .inl (.of_same rfl)

/-- Every step: the receiver's events, or the INIT that the host requested. -/
theorem StepNext.activeEvents {s t : State} (h : StepNext s t) :
    ActiveEvents s t ∨
    (t.rx.active = false ∧ t.rx.state = .idle ∧ ∃ q rest, s.env.requests = q :: rest ∧ q.code = 0b001#3) := by
  cases h with
  | idle => exact .inl (.of_same rfl)
  | @operation _ q rest _ _ request decoded answer =>
    rcases answer.activeEvents with events | ⟨hclear, hidle, hinit⟩
    · exact .inl ⟨events.set, events.cleared⟩
    · exact .inr ⟨hclear, hidle, q, rest, request, (decodeCommand_host decoded).2 hinit⟩
  | run _ kept =>
    obtain ⟨-, -, -, hrx, -⟩ := kept
    exact .inl (.of_same (by rw [hrx]))

/-- Settles O57. -/
theorem activeWrittenByItsEvents : Obligations.ActiveWrittenByItsEvents := by
  intro s t h
  rcases (step_next h).activeEvents with events | ⟨hclear, hidle, hinit⟩
  · refine ⟨events.set, fun h1 h0 => ?_⟩
    obtain ⟨hidle, hend | hend⟩ := events.cleared h1 h0
    · exact ⟨hidle, .inl hend⟩
    · exact ⟨hidle, .inr (.inl hend)⟩
  · exact ⟨fun _ h1 => absurd (hclear.symm.trans h1) nofun, fun _ _ => ⟨hidle, .inr (.inr hinit)⟩⟩

/-! ### Reset and the codes -/

/-- Settles O21: R50's values stand in `State.reset` as they are. -/
theorem resetStateAsSpecified : Obligations.ResetStateAsSpecified :=
  ⟨rfl, rfl, rfl, rfl, rfl, rfl, rfl, rfl, rfl, rfl, rfl⟩

/-- Settles O22, table by table. -/
theorem codesAsTabulated : Obligations.CodesAsTabulated :=
  ⟨rfl, rfl, rfl, rfl, rfl, rfl, rfl⟩

/-- The default parameters are in range (00_scope.md R8, U13 to U16). -/
theorem Params.default_legal : Params.default.legal := by decide

/-- Settles O52: the receiver is in Idle with its assembler cleared, no run is in progress, and no INIT has completed. -/
theorem resetIsSound : Obligations.ResetIsSound where
  par := Params.default_legal
  rxbuf := Memory.wf_nil
  txbuf := Memory.wf_nil
  cfg := nofun
  started := fun h => absurd rfl h
  asm := asmSound_cleared rfl rfl rfl rfl
  zeros := nofun
  retry := Nat.zero_le 3
  budget := nofun
  seqZero := fun _ => rfl
  active := by rintro (h | h | h) <;> cases h
  inactive := fun _ => rfl
  reasonErr := nofun
  reasonTerm := nofun
  run := .inl ⟨rfl, rfl⟩

end Sys2Proof.Machine

/-! # 20_memory.md: no access outside a space

`step_run_sound` says that no step of a run faults. Outside a run a step runs one host operation, and of these only RX_STEP,
whose assembler writes RXBUF, can fault at all: that it does not from a sound state is `State.rxStep_sound`. -/

namespace Sys2Proof.Machine

/-! ### Where a host operation's fault comes from -/

/-- Admission adds no fault of its own (R320). -/
theorem State.free_fault {s : State} {k : Out} {f : Fault} (h : s.free k = .fault f) : k = .fault f := by
  unfold State.free at h
  split at h
  · exact h
  · cases h

/-- RX_STEP is the only host operation that can fault, and only in its domain (R312, R66; log 18). -/
theorem exec_host_fault {s : State} {i : Instr} {f : Fault} (hw : i.isWire = false) (h : exec i s = .fault f) :
    i = .rxStep ∧ s.inited = true ∧ s.rxStep = .fault f := by
  cases i with
  | soh | stx | eot | ack | nak | can | c => cases hw
  | rxStep =>
    change execRxStep s = .fault f at h
    unfold execRxStep at h
    split at h
    · exact ⟨rfl, ‹_›, State.free_fault h⟩
    · cases h
  | init st tk ct u rs ts =>
    have hk := State.free_fault h
    split at hk <;> cases hk
  | sendFile name size file =>
    change execSendFile name size file s = .fault f at h
    unfold execSendFile at h
    split at h
    · have hk := State.free_fault h
      split at hk
      · split at hk <;> cases hk
      · cases hk
    · cases h
  | crc16 | validate => cases State.free_fault h
  | encode header seq fill payload len =>
    have hk := State.free_fault h
    split at hk
    · cases hk
    · split at hk <;> cases hk

/-- No host operation faults in a sound state (R66). -/
theorem Sound.exec_host_ne_fault {s : State} (h : Sound s) {i : Instr} (hw : i.isWire = false) (f : Fault) :
    exec i s ≠ .fault f := by
  intro hf
  obtain ⟨-, inited, hpoll⟩ := exec_host_fault hw hf
  obtain ⟨t, ht, -⟩ := State.rxStep_sound h inited
  cases ht.symm.trans hpoll

/-! ### Every step -/

/-- Settles O54. A run's step is `step_run_sound`; outside a run the step answers, refuses, or runs a host operation. -/
theorem noAccessOutsideASpace : Obligations.NoAccessOutsideASpace := by
  intro s f h hf
  by_cases hp : s.tx.phase = .txIdle
  · rcases step_request s hp with ⟨-, e⟩ | ⟨q, rest, -, ⟨i, hd, e⟩ | ⟨-, e⟩ | ⟨r, -, -, e⟩⟩ <;> rw [e] at hf
    · cases hf
    · obtain ⟨hw, -⟩ := decodeCommand_host hd
      have taken : Sound (s.takeRequest rest) := h.env _ s.crcAcc s.result
      exact taken.exec_host_ne_fault hw f hf
    · cases hf
    · cases hf
  · obtain ⟨t, ht, -⟩ := step_run_sound h hp
    cases ht.symm.trans hf

end Sys2Proof.Machine

/-! # 30_encoding.md: the wire units, the command port, who reads a unit

A frame is decoded exactly from its fields in wire order (`decodeFrame_ok_iff`), and the first byte alone selects what is decoded
(`decodeWire_cons_cases`): the round trips in both directions are these two facts. Executed, every unit is one reception
(`exec_wire`), so what it does is decided by who reads the link. -/

namespace Sys2Proof.Machine

/-! ### Units of the byte stream (R90 to R95) -/

/-- A frame is decoded exactly from its fields in wire order, with a payload of the format's size (R90, R91). -/
theorem decodeFrame_ok_iff {mk : Byte → Byte → List Byte → Byte → Byte → Instr} {n : Nat} {bytes more : List Byte}
    {i : Instr} :
    decodeFrame mk n bytes = .ok (i, more) ↔
      ∃ seq nseq payload hi lo, payload.length = n ∧ bytes = seq :: nseq :: (payload ++ hi :: lo :: more) ∧
        i = mk seq nseq payload hi lo := by
  constructor
  · intro h
    unfold decodeFrame at h
    split at h
    · rename_i seq nseq tl
      split at h
      · rename_i hi lo after hdrop
        cases h
        have hlen := congrArg List.length hdrop
        rw [List.length_drop, List.length_cons] at hlen
        refine ⟨seq, nseq, tl.take n, hi, lo, List.length_take_of_le (by omega), ?_, rfl⟩
        rw [← hdrop, List.take_append_drop]
      · cases h
    · cases h
  · rintro ⟨seq, nseq, payload, hi, lo, rfl, rfl, rfl⟩
    simp [decodeFrame]

/-- A first byte outside R92's set opens no unit (R100). -/
theorem decodeWire_badSync {b : Byte} (h : b ∉ [symSOH, symSTX, symEOT, symACK, symNAK, symCAN, symC])
    (rest : List Byte) : decodeWire (b :: rest) = .error .badSync := by
  simp only [List.mem_cons, List.not_mem_nil, or_false, not_or] at h
  simp [decodeWire, h]

/-- What the first byte of a stream selects: one of the two frame formats, one of the five one-byte units, or no unit (R92,
R95, R100). -/
theorem decodeWire_cons_cases (b : Byte) (rest : List Byte) :
    (b = symSOH ∧ decodeWire (b :: rest) = decodeFrame .soh 128 rest) ∨
    (b = symSTX ∧ decodeWire (b :: rest) = decodeFrame .stx 1024 rest) ∨
    (∃ i : Instr, i.wellFormed = true ∧ i.isWire = true ∧ wireBytes i = [b] ∧ decodeWire (b :: rest) = .ok (i, rest)) ∨
    (b ∉ [symSOH, symSTX, symEOT, symACK, symNAK, symCAN, symC] ∧ decodeWire (b :: rest) = .error .badSync) := by
  by_cases hsoh : b = symSOH
  · subst hsoh; exact .inl ⟨rfl, rfl⟩
  by_cases hstx : b = symSTX
  · subst hstx; exact .inr (.inl ⟨rfl, rfl⟩)
  refine .inr (.inr ?_)
  by_cases heot : b = symEOT
  · subst heot; exact .inl ⟨.eot, rfl, rfl, rfl, rfl⟩
  by_cases hack : b = symACK
  · subst hack; exact .inl ⟨.ack, rfl, rfl, rfl, rfl⟩
  by_cases hnak : b = symNAK
  · subst hnak; exact .inl ⟨.nak, rfl, rfl, rfl, rfl⟩
  by_cases hcan : b = symCAN
  · subst hcan; exact .inl ⟨.can, rfl, rfl, rfl, rfl⟩
  by_cases hc : b = symC
  · subst hc; exact .inl ⟨.c, rfl, rfl, rfl, rfl⟩
  have illegal : b ∉ [symSOH, symSTX, symEOT, symACK, symNAK, symCAN, symC] := by simp [*]
  exact .inr ⟨illegal, decodeWire_badSync illegal rest⟩

/-- A well-formed unit is read back from the head of any stream (R95). -/
theorem decodeWire_wireBytes_append {i : Instr} (hwf : i.wellFormed = true) (hw : i.isWire = true) (rest : List Byte) :
    decodeWire (wireBytes i ++ rest) = .ok (i, rest) := by
  cases i with
  | soh seq nseq payload hi lo | stx seq nseq payload hi lo =>
    exact decodeFrame_ok_iff.2 ⟨seq, nseq, payload, hi, lo, beq_iff_eq.1 hwf,
      congrArg (seq :: nseq :: ·) (List.append_assoc payload [hi, lo] rest), rfl⟩
  | eot | ack | nak | can | c => rfl
  | init | rxStep | sendFile | crc16 | validate | encode => cases hw

/-- What is decoded is well-formed, and its unit is what was taken off the stream. -/
theorem wireBytes_append_of_decodeWire {bytes rest : List Byte} {i : Instr} (h : decodeWire bytes = .ok (i, rest)) :
    i.wellFormed = true ∧ i.isWire = true ∧ wireBytes i ++ rest = bytes := by
  cases bytes with
  | nil => cases h
  | cons b tl =>
    rcases decodeWire_cons_cases b tl with ⟨rfl, e⟩ | ⟨rfl, e⟩ | ⟨j, hwf, hw, hbytes, e⟩ | ⟨-, e⟩ <;> rw [e] at h
    · obtain ⟨seq, nseq, payload, hi, lo, hlen, rfl, rfl⟩ := decodeFrame_ok_iff.1 h
      exact ⟨beq_iff_eq.2 hlen, rfl, by simp [wireBytes, encode, frameBytes]⟩
    · obtain ⟨seq, nseq, payload, hi, lo, hlen, rfl, rfl⟩ := decodeFrame_ok_iff.1 h
      exact ⟨beq_iff_eq.2 hlen, rfl, by simp [wireBytes, encode, frameBytes]⟩
    · cases h
      exact ⟨hwf, hw, by rw [hbytes]; rfl⟩
    · cases h

/-- The lengths R95 gives. -/
theorem unitLength_eq (b : Byte) : unitLength b = if b = 0x01#8 then 133 else if b = 0x02#8 then 1029 else 1 := by
  unfold unitLength
  rcases payloadSize_cases b with ⟨rfl, h⟩ | ⟨rfl, h⟩ | ⟨h1, h2, h⟩
  · rw [h]; rfl
  · rw [h]; rfl
  · rw [h, if_neg h1, if_neg h2]

/-- The unit of a wire symbol has a first byte, which gives its length: `Laws.EncodedLength` over the constructors. -/
theorem wireBytes_length {i : Instr} (hwf : i.wellFormed = true) (hw : i.isWire = true) :
    ∃ b rest, wireBytes i = b :: rest ∧ (wireBytes i).length = unitLength b := by
  have unit : Laws.EncodedLength.Statement i := by
    cases i with
    | soh seq nseq payload hi lo => exact Laws.EncodedLength.soh seq nseq payload hi lo
    | stx seq nseq payload hi lo => exact Laws.EncodedLength.stx seq nseq payload hi lo
    | eot => exact Laws.EncodedLength.eot
    | ack => exact Laws.EncodedLength.ack
    | nak => exact Laws.EncodedLength.nak
    | can => exact Laws.EncodedLength.can
    | c => exact Laws.EncodedLength.c
    | init | rxStep | sendFile | crc16 | validate | encode => cases hw
  obtain ⟨b, rest, hbytes, hlen⟩ := (unit hwf).1 hw
  exact ⟨b, rest, hbytes, by rw [hbytes]; exact hlen⟩

/-- Settles O2: the bytes taken are the unit's own, and the unit's first byte is the stream's. -/
theorem encodeInvertsDecode : Obligations.EncodeInvertsDecode := by
  intro bytes rest i h
  obtain ⟨hwf, hw, happend⟩ := wireBytes_append_of_decodeWire h
  obtain ⟨b, tl, hbytes, hlen⟩ := wireBytes_length hwf hw
  have hhead : bytes.head? = some b := by rw [← happend, hbytes]; rfl
  refine ⟨hwf, hw, happend, ?_⟩
  rw [hlen, unitLength_eq, hhead]
  simp only [Option.some.injEq]

/-! ### Encoded instructions of either kind -/

/-- A wire symbol is encoded as its unit. -/
theorem encode_of_isWire {i : Instr} (hw : i.isWire = true) : encode i = .wire (wireBytes i) := by
  cases i with
  | soh | stx | eot | ack | nak | can | c => rfl
  | init | rxStep | sendFile | crc16 | validate | encode => cases hw

/-- A unit with nothing after it. -/
theorem decode_wire {bytes : List Byte} {i : Instr} (h : decodeWire bytes = .ok (i, [])) : decode (.wire bytes) = .ok i := by
  simp only [decode, h]

/-- Every host operation is read back from the request that asks for it (R103). -/
theorem decode_encode_of_host {i : Instr} (hw : i.isWire = false) : decode (encode i) = .ok i := by
  cases i with
  | soh | stx | eot | ack | nak | can | c => cases hw
  | init | rxStep | sendFile | crc16 | validate | encode => rfl

/-- Settles O1: a unit is the case of the empty stream after it, a request is read back code by code. -/
theorem decodeInvertsEncode : Obligations.DecodeInvertsEncode := by
  intro i hwf
  refine ⟨?_, fun hw => decodeWire_wireBytes_append hwf hw⟩
  cases hw : i.isWire with
  | true =>
    rw [encode_of_isWire hw]
    have alone := decodeWire_wireBytes_append hwf hw []
    rw [List.append_nil] at alone
    exact decode_wire alone
  | false => exact decode_encode_of_host hw

/-- Settles O3: the written words of R90 and R92 are the units of their instructions, with what follows them. -/
theorem writtenWordsDecode : Obligations.WrittenWordsDecode :=
  ⟨decodeWire_wireBytes_append (i := .eot) rfl rfl [], decodeWire_wireBytes_append (i := .ack) rfl rfl [0x43#8],
    decodeWire_wireBytes_append (i := .nak) rfl rfl [], decodeWire_wireBytes_append (i := .can) rfl rfl [],
    decodeWire_wireBytes_append (i := .c) rfl rfl [],
    decodeWire_wireBytes_append (i := .soh 0x00#8 0xFF#8 (List.replicate 128 0x00#8) 0x00#8 0x00#8)
      (beq_iff_eq.2 List.length_replicate) rfl [0x04#8],
    rfl⟩

/-- Settles O4: such a byte is no control byte and selects no payload size, so check 2 fails; only 'C' is a unit all the same. -/
theorem illegalFirstByteIsBadSync : Obligations.IllegalFirstByteIsBadSync := by
  intro b exp rest len acc hlen hb
  simp only [List.mem_cons, List.not_mem_nil, or_false, not_or] at hb
  obtain ⟨hsoh, hstx, heot, hack, hnak, hcan⟩ := hb
  constructor
  · have control : isControlByte b = false := by
      rw [← Bool.not_eq_true, isControlByte_iff]
      simp [heot, hack, hnak, hcan]
    have size : payloadSize b = none := by
      rcases payloadSize_cases b with ⟨h, -⟩ | ⟨h, -⟩ | ⟨-, -, h⟩
      · exact absurd h hsoh
      · exact absurd h hstx
      · exact h
    obtain ⟨k, rfl⟩ : ∃ k, len = k + 1 := ⟨len - 1, by omega⟩
    exact validate_sync control size rest k exp acc
  · intro hc
    exact decodeWire_badSync (by simp [symSOH, symSTX, symEOT, symACK, symNAK, symCAN, symC, *]) rest

/-! ### The command port (R103) -/

theorem decodeCommand_noOperation {q : Command} (h : q.code = 0b000#3) : decodeCommand q = .error .noOperation := by
  unfold decodeCommand
  rw [h]
  rfl

theorem decodeCommand_unassigned {q : Command} (h : q.code = 0b111#3) : decodeCommand q = .error .unassigned := by
  unfold decodeCommand
  rw [h]
  rfl

/-- A step outside a run that takes the request `q`. -/
theorem step_taken {s : State} {q : Command} {rest : List Command} (hp : s.tx.phase = .txIdle)
    (hq : s.env.requests = q :: rest) :
    step s = match decodeCommand q with
      | .ok i => exec i (s.takeRequest rest)
      | .error .noOperation => .next (s.takeRequest rest)
      | .error _ => .refused .unassignedCommand := by
  rcases step_request s hp with ⟨hnil, -⟩ | ⟨q', rest', hq', h⟩
  · cases hq.symm.trans hnil
  · cases hq.symm.trans hq'
    rcases h with ⟨i, hd, e⟩ | ⟨hd, e⟩ | ⟨r, hd, hr, e⟩ <;> rw [e, hd]
    cases r with
    | noOperation => exact absurd rfl hr
    | _ => rfl

/-- Settles O5. -/
theorem stepRunsRequestedOperation : Obligations.StepRunsRequestedOperation := by
  intro s hp
  refine ⟨fun q rest i hq hd => ?_, fun hnil => ?_, fun q rest hq hcode => ?_, fun q rest hq hcode => ?_⟩
  · rw [step_taken hp hq, hd]; rfl
  · rcases step_request s hp with ⟨-, e⟩ | ⟨q, rest, hq, -⟩
    · exact e
    · cases hnil.symm.trans hq
  · rw [step_taken hp hq, decodeCommand_noOperation hcode]; rfl
  · rw [step_taken hp hq, decodeCommand_unassigned hcode]

/-! ### Units received (R101, R102) -/

/-- Executed, a wire symbol is the reception of its unit, first byte first. -/
theorem exec_wire (s : State) {i : Instr} (hw : i.isWire = true) :
    ∃ b rest loaded, wireBytes i = b :: rest ∧ exec i s = s.receive b rest loaded := by
  cases i with
  | soh | stx | eot | ack | nak | can | c => exact ⟨_, _, _, rfl, rfl⟩
  | init | rxStep | sendFile | crc16 | validate | encode => cases hw

/-- Settles O40. -/
theorem unreadUnitStaysPending : Obligations.UnreadUnitStaysPending := by
  intro s i hw hdeaf
  obtain ⟨b, rest, loaded, hbytes, hexec⟩ := exec_wire s hw
  rw [hexec, State.receive_deaf hdeaf, hbytes]
  rfl

/-- A frame as an instruction: its header byte is SOH or STX and the rest of its fields follow (R90). -/
theorem isFrame.wireBytes_eq {i : Instr} {seq nseq hi lo : Byte} {payload : List Byte}
    (h : isFrame i seq nseq payload hi lo) :
    i.isWire = true ∧ ∃ header, (header = symSOH ∨ header = symSTX) ∧
      wireBytes i = header :: seq :: nseq :: (payload ++ [hi, lo]) := by
  rcases h with ⟨rfl, -⟩ | ⟨rfl, -⟩
  · exact ⟨rfl, symSOH, .inl rfl, rfl⟩
  · exact ⟨rfl, symSTX, .inr rfl, rfl⟩

/-- No wait accepts a byte that opens a frame, and neither is CAN: the byte is dropped and the time is tested (R102, R232). -/
theorem State.txByte_header (s : State) {header : Byte} (h : header = symSOH ∨ header = symSTX) :
    s.txByte header = .next s.txTimeTest := by
  have notAccepted : header ∉ txAccept s.tx.phase := by
    rcases h with rfl | rfl <;> cases s.tx.phase <;> decide
  have notCan : header ≠ 0x18#8 := by rcases h with rfl | rfl <;> decide
  rcases s.txByte_cases header with ⟨hcan, -⟩ | ⟨-, hacc, -⟩ | ⟨-, hacc, -⟩ | ⟨-, -, e⟩
  · exact absurd hcan notCan
  · exact absurd hacc notAccepted
  · exact absurd hacc notAccepted
  · exact e

/-- The state in which `bytes` are the next on the link, before the pending input (log 15). -/
def State.nextOnLink (s : State) (bytes : List Byte) : State :=
  { s with env := { s.env with linkIn := bytes ++ s.env.linkIn } }

/-- What is on the link does not move the tick source (R45). -/
@[simp] theorem State.nextOnLink_readTick (s : State) (bytes : List Byte) :
    (s.nextOnLink bytes).env.readTick.1 = s.env.readTick.1 := Env.readTick_congr rfl rfl rfl

/-- In a sender's wait a frame is its header byte dropped, with its other bytes next on the link (R102, R232). -/
theorem exec_frame_awaits {s : State} {p : TxPhase} (hwait : awaits s p) {i : Instr} {seq nseq hi lo : Byte}
    {payload : List Byte} (hframe : isFrame i seq nseq payload hi lo) :
    exec i s = .next (s.nextOnLink (seq :: nseq :: (payload ++ [hi, lo]))).txTimeTest := by
  obtain ⟨hw, header, hheader, hunit⟩ := hframe.wireBytes_eq
  obtain ⟨b, rest, loaded, hbytes, hexec⟩ := exec_wire s hw
  cases hbytes.symm.trans hunit
  rw [hexec, State.receive_awaits hwait]
  exact State.txByte_header _ hheader

/-- Settles O51: the time test is the record update of `State.txTimeTest_eq`, read field by field. -/
theorem frameInAWaitIsReadBytewise : Obligations.FrameInAWaitIsReadBytewise := by
  intro s p i seq nseq payload hi lo hwait hframe
  have ⟨_, _, hwaiting⟩ := hwait
  have waits : (s.nextOnLink (seq :: nseq :: (payload ++ [hi, lo]))).tx.waiting = true := hwaiting
  refine ⟨_, exec_frame_awaits hwait hframe, ?_⟩
  rw [State.txTimeTest_eq waits]
  simp only [State.nextOnLink_readTick, Env.readTick_linkIn, Env.readTick_trace, Env.readTick_linkOut,
    Env.readTick_requests, Env.readTick_arrivals, Env.readTick_answers]
  exact ⟨rfl, rfl, rfl, rfl, rfl, rfl, rfl, sameReceiver_refl s, rfl, rfl, rfl⟩

end Sys2Proof.Machine

/-! # 40_crc16.md: the CRC engine

The eight rounds of a byte are one iteration (R131), and the CRC of a byte sequence is a fold of bytes. What the engine
guarantees then follows from two facts of `Laws/Crc` about a byte: it is linear (R135), and it loses nothing of the accumulator
XORed with the byte (R136). -/

namespace Sys2Proof.Machine

/-! ### A byte is eight rounds (R131) -/

theorem crcByte_eq_iterate (acc : Half) (b : Byte) : crcByte acc b = crcRound^[8] (acc ^^^ (b.setWidth 16 <<< 8)) := rfl

/-- A round of the register is the round on natural numbers. -/
theorem crcRound_semiconj : Function.Semiconj BitVec.toNat crcRound crcRoundNat := crcRound_toNat

theorem crcRound_iterate_toNat (n : Nat) (a : Half) : (crcRound^[n] a).toNat = crcRoundNat^[n] a.toNat :=
  crcRound_semiconj.iterate_right n a

/-- A byte in the high half of a 16-bit word. -/
theorem highHalf_toNat (b : Byte) : (b.setWidth 16 <<< 8).toNat = 256 * b.toNat := by
  rw [BitVec.toNat_shiftLeft, BitVec.toNat_setWidth, Nat.shiftLeft_eq]
  omega

/-- Settles O9. -/
theorem crcByteIsEightRounds : Obligations.CrcByteIsEightRounds := by
  intro acc b
  rw [crcByte_eq_iterate, crcRound_iterate_toNat, BitVec.toNat_xor, highHalf_toNat]

/-! ### The CRC of a byte sequence is a fold (R130, R132) -/

@[simp] theorem crc16_nil (acc : Half) : crc16 acc [] = acc := rfl

@[simp] theorem crc16_cons (acc : Half) (b : Byte) (t : List Byte) : crc16 acc (b :: t) = crc16 (crcByte acc b) t := rfl

theorem crc16_eq_foldl (acc : Half) (l : List Byte) : crc16 acc l = l.foldl crcByte acc := by
  induction l generalizing acc with
  | nil => rfl
  | cons b t ih => exact ih _

theorem crc16_append (acc : Half) (a b : List Byte) : crc16 acc (a ++ b) = crc16 (crc16 acc a) b := by
  simp only [crc16_eq_foldl, List.foldl_append]

/-- Settles O10. -/
theorem crcChainsOverSpans : Obligations.CrcChainsOverSpans :=
  fun seed a b => (crc16_append seed a b).symm

/-- Settles O8: the operation is admitted, and its operand is what `State.operand_spec` says. -/
theorem crc16Completes : Obligations.Crc16Completes := by
  intro s seed data len hidle
  obtain ⟨more, draws, hoperand, hmore, hdraws⟩ := s.operand_spec data len
  refine ⟨more, draws, hmore, hdraws, ?_⟩
  show execCrc16 seed data len s = _
  unfold execCrc16 State.free
  rw [if_pos hidle, hoperand, ← crc16_eq_foldl]

/-! ### The residue of a codeword (R135 (a)) -/

/-- While no bit reaches the top, rounds only shift. -/
theorem crcRoundNat_iterate_small (n a : Nat) (h : 2 ^ n * a < 65536) : crcRoundNat^[n] a = 2 ^ n * a := by
  induction n with
  | zero => simp
  | succ n ih =>
    rw [pow_succ, Nat.mul_right_comm] at h ⊢
    rw [Function.iterate_succ_apply', ih (by omega), crcRoundNat, if_neg (by omega), Nat.mul_comm]

/-- A byte that equals the accumulator's high half, the low half being zero, leaves zero. -/
theorem crcByte_cancel (b : Byte) : crcByte (b.setWidth 16 <<< 8) b = 0#16 := by
  rw [crcByte_eq_iterate, BitVec.xor_self]
  rfl

/-- With a zero byte, the accumulator's low half moves up when its high half is zero. -/
theorem crcByte_lowHalf (b : Byte) : crcByte (b.setWidth 16) 0#8 = b.setWidth 16 <<< 8 := by
  apply BitVec.eq_of_toNat_eq
  have hb := b.isLt
  rw [crcByteIsEightRounds, highHalf_toNat, BitVec.toNat_setWidth_of_le (by omega), BitVec.toNat_ofNat,
    Nat.zero_mod, Nat.mul_zero, Nat.xor_zero]
  exact crcRoundNat_iterate_small 8 _ (by omega)

/-- A 16-bit word is its high byte over its low byte (R61). -/
theorem halves_xor (v : Half) : ((crcHigh v).setWidth 16 <<< 8) ^^^ (crcLow v).setWidth 16 = v := by
  ext i hi
  by_cases h : i < 8
  · simp [crcHigh, crcLow, h, BitVec.getLsbD_eq_getElem hi]
  · have inHigh : i - 8 < 8 := by omega
    have index : 8 + (i - 8) = i := by omega
    simp [crcHigh, crcLow, h, inHigh, index, BitVec.getLsbD_eq_getElem hi]

/-- The accumulator's own high byte cancels its high half, and its low half moves up. -/
theorem crcByte_crcHigh (v : Half) : crcByte v (crcHigh v) = (crcLow v).setWidth 16 <<< 8 :=
  calc crcByte v (crcHigh v)
      = crcByte (((crcHigh v).setWidth 16 <<< 8) ^^^ (crcLow v).setWidth 16) (crcHigh v ^^^ 0#8) := by
        rw [halves_xor, BitVec.xor_zero]
    _ = (crcLow v).setWidth 16 <<< 8 := by
        rw [crcByte_xor, crcByte_cancel, crcByte_lowHalf, BitVec.zero_xor]

/-- The accumulator's own bytes, high byte first, leave zero. -/
theorem crc16_own_bytes (v : Half) : crc16 v [crcHigh v, crcLow v] = 0#16 := by
  rw [crc16_cons, crcByte_crcHigh, crc16_cons, crcByte_cancel, crc16_nil]

/-! ### Linearity (R135 (b)) -/

theorem crc16_xor (acc acc' : Half) (a b : List Byte) (h : a.length = b.length) :
    crc16 (acc ^^^ acc') (List.zipWith (fun x y => x ^^^ y) a b) = crc16 acc a ^^^ crc16 acc' b := by
  induction a generalizing b acc acc' with
  | nil =>
    cases b with
    | nil => rfl
    | cons y b => cases h
  | cons x a ih =>
    cases b with
    | nil => cases h
    | cons y b => rw [List.zipWith_cons_cons, crc16_cons, crcByte_xor, ih _ _ b (Nat.succ.inj h), crc16_cons, crc16_cons]

/-- Settles O11. -/
theorem crcResidueAndLinearity : Obligations.CrcResidueAndLinearity :=
  ⟨fun data => by rw [crc16_append, crc16_own_bytes], crc16_xor 0#16 0#16⟩

/-! ### Detection of a changed byte (R136) -/

/-- Over the same bytes, different accumulators stay different. -/
theorem crc16_acc_inj (l : List Byte) {acc acc' : Half} (h : crc16 acc l = crc16 acc' l) : acc = acc' := by
  induction l generalizing acc acc' with
  | nil => exact h
  | cons b t ih => exact (BitVec.xor_left_inj _).1 (crcByte_inj (ih h))

/-- From the same accumulator, different bytes give different accumulators. -/
theorem crcByte_byte_inj (acc : Half) {x y : Byte} (h : crcByte acc x = crcByte acc y) : x = y := by
  have halves : (x.setWidth 16 <<< 8 : Half) = y.setWidth 16 <<< 8 := (BitVec.xor_right_inj _).1 (crcByte_inj h)
  have := congrArg BitVec.toNat halves
  rw [highHalf_toNat, highHalf_toNat] at this
  exact BitVec.eq_of_toNat_eq (by omega)

/-- Settles O12: the bytes before bring both to one accumulator, the changed byte parts them, the bytes after keep them apart. -/
theorem crcDetectsAnySingleByteChange : Obligations.CrcDetectsAnySingleByteChange := by
  intro before after x y hne heq
  rw [crc16_append, crc16_append, crc16_cons, crc16_cons] at heq
  exact hne (crcByte_byte_inj _ (crc16_acc_inj after heq))

end Sys2Proof.Machine

/-! # 41_codec.md: VALIDATE, ENCODE and the header payload

The verdict of VALIDATE is the first failing check (R271): its eight outcomes are `validate_cases` of `Laws/Codec`, and what
decides them excludes one another. The header payload is read by splitting at the first NUL and at the end of the digit run. -/

namespace Sys2Proof.Machine

/-- Outside a SEND_FILE run a host operation is admitted (R320). -/
theorem State.free_of_txIdle {s : State} (hidle : s.tx.phase = .txIdle) (k : Out) : s.free k = k := if_pos hidle

/-! ### VALIDATE (R140 to R147) -/

/-- The candidate has a header byte and the length of its frame: checks 2 and 3 pass (R142, R143). -/
def Framed (buf : List Byte) (len n : Nat) : Prop :=
  1 ≤ len ∧ ((buf.getD 0 0#8 = 0x01#8 ∧ n = 128) ∨ (buf.getD 0 0#8 = 0x02#8 ∧ n = 1024)) ∧ len = n + 5

/-- The header byte decides the payload size (R142). -/
theorem payloadSize_eq_some_iff (b : Byte) (n : Nat) :
    payloadSize b = some n ↔ (b = 0x01#8 ∧ n = 128) ∨ (b = 0x02#8 ∧ n = 1024) := by
  rcases payloadSize_cases b with ⟨rfl, h⟩ | ⟨rfl, h⟩ | ⟨h1, h2, h⟩
  · simp [h, eq_comm]
  · simp [h, eq_comm]
  · simp [h, h1, h2]

theorem framed_iff (buf : List Byte) (len n : Nat) :
    Framed buf len n ↔ payloadSize (buf.getD 0 0#8) = some n ∧ len = n + 5 := by
  rw [payloadSize_eq_some_iff]
  exact ⟨fun ⟨_, hb, hl⟩ => ⟨hb, hl⟩, fun ⟨hb, hl⟩ => ⟨by omega, hb, hl⟩⟩

/-- On a framed candidate the checks 4 to 6 decide (R144 to R146). -/
theorem exists_framed_iff {buf : List Byte} {n : Nat} (h : payloadSize (buf.getD 0 0#8) = some n) (len : Nat)
    (P : Nat → Prop) : (∃ m, Framed buf len m ∧ P m) ↔ len = n + 5 ∧ P n := by
  simp only [framed_iff, h, Option.some.injEq]
  exact ⟨fun ⟨_, ⟨hm, hl⟩, hP⟩ => hm ▸ ⟨hl, hP⟩, fun ⟨hl, hP⟩ => ⟨n, ⟨rfl, hl⟩, hP⟩⟩

/-- A candidate that fails check 2 or 3 is not framed (R142, R143). -/
theorem not_exists_framed {buf : List Byte} {len : Nat} (h : ∀ n, payloadSize (buf.getD 0 0#8) = some n → len ≠ n + 5)
    (P : Nat → Prop) : ¬ ∃ m, Framed buf len m ∧ P m := by
  rintro ⟨m, hm, -⟩
  obtain ⟨hp, hl⟩ := (framed_iff buf len m).1 hm
  exact h m hp hl

/-- The control bytes as a list (R141). -/
theorem eq_and_mem_controlBytes_iff (b x : Byte) :
    b = x ∧ x ∈ [0x06#8, 0x04#8, 0x15#8, 0x18#8] ↔ isControlByte b = true ∧ b = x := by
  rw [isControlByte_iff, and_comm]
  refine and_congr_left ?_
  rintro rfl
  simp

/-- A control byte is no header byte. -/
theorem payloadSize_of_isControlByte {b : Byte} (h : isControlByte b = true) : payloadSize b = none :=
  Option.eq_none_iff_forall_ne_some.2 fun _ hp => Bool.false_ne_true ((isControlByte_of_payloadSize hp).symm.trans h)

/-- The bytes that fail check 2 (R142). -/
theorem payloadSize_eq_none_iff (b : Byte) : payloadSize b = none ↔ b ≠ 0x01#8 ∧ b ≠ 0x02#8 := by
  rcases payloadSize_cases b with ⟨rfl, h⟩ | ⟨rfl, h⟩ | ⟨h1, h2, h⟩
  · simp [h]
  · simp [h]
  · simp [h, h1, h2]

/-- The bytes that pass check 1 and fail check 2 (R141, R142). -/
theorem not_mem_firstBytes_iff (x : Byte) :
    x ∉ [0x06#8, 0x04#8, 0x15#8, 0x18#8, 0x01#8, 0x02#8] ↔ isControlByte x = false ∧ payloadSize x = none := by
  rw [← Bool.not_eq_true, isControlByte_iff, payloadSize_eq_none_iff]
  simp [and_assoc]

/-- A header byte and another length than its frame's (R143). -/
theorem otherLength_iff (x : Byte) (len : Nat) :
    (x = 0x01#8 ∧ len ≠ 133) ∨ (x = 0x02#8 ∧ len ≠ 1029) ↔ ∃ n, payloadSize x = some n ∧ len ≠ n + 5 := by
  simp [payloadSize_eq_some_iff, or_and_right, exists_or, and_assoc]

/-- Settles O13: each outcome of `validate_cases` decides all eight equivalences. -/
theorem validateReportsFirstFailingCheck : Obligations.ValidateReportsFirstFailingCheck := by
  intro buf len exp acc _
  dsimp only
  simp only [← Framed.eq_def, eq_and_mem_controlBytes_iff, not_mem_firstBytes_iff, otherLength_iff]
  rcases validate_cases buf len exp acc with ⟨rfl, h⟩ | ⟨h0, hc, h⟩ | ⟨h0, hc, hp, h⟩ | ⟨n, h0, hp, hframe⟩
  · have hno := not_exists_framed (buf := buf) (len := 0) fun n _ => by omega
    simp [h, hno]
  · have hp := payloadSize_of_isControlByte hc
    have hno := not_exists_framed (buf := buf) (len := len) fun _ hn => by cases hp ▸ hn
    simp [h, h0, Nat.ne_of_gt h0, hc, hp, hno, -List.getD_eq_getElem?_getD]
  · have hno := not_exists_framed (buf := buf) (len := len) fun _ hn => by cases hp ▸ hn
    simp [h, h0, Nat.ne_of_gt h0, hc, hp, hno, -List.getD_eq_getElem?_getD]
  · have hc := isControlByte_of_payloadSize hp
    simp only [exists_framed_iff hp]
    rcases hframe with ⟨hl, h⟩ | ⟨rfl, hx, h⟩ | ⟨rfl, hx, hs, h⟩ | ⟨rfl, hx, rfl, hcrc, h⟩ | ⟨rfl, hx, rfl, hcrc, h⟩
    · simp [h, h0, Nat.ne_of_gt h0, hc, hp, hl, -List.getD_eq_getElem?_getD]
    · simp [h, hc, hp, hx, -List.getD_eq_getElem?_getD]
    · simp [h, hc, hp, hx, hs, -List.getD_eq_getElem?_getD]
    · simp [h, hc, hp, hx, hcrc, -List.getD_eq_getElem?_getD]
    · simp [h, hc, hp, hx, hcrc, -List.getD_eq_getElem?_getD]

/-- What VALIDATE leaves in CRC_ACC: only check 6 writes it, and a Valid frame ends in it (R140, R146, R147). -/
theorem validate_crcAcc (buf : List Byte) (len : Nat) (exp : Byte) (acc : Half) :
    let r := validate buf len exp acc
    (r.1 ≠ .valid → r.1 ≠ .invalid .crc → r.2 = acc) ∧
    (r.1 = .valid ∨ r.1 = .invalid .crc → r.2 = crc16 0#16 ((buf.drop 3).take (len - 5))) ∧
    (r.1 = .valid → r.2 = buf.getD (len - 2) 0#8 ++ buf.getD (len - 1) 0#8) := by
  dsimp only
  rcases validate_cases buf len exp acc with ⟨-, h⟩ | ⟨-, -, h⟩ | ⟨-, -, -, h⟩ | ⟨n, -, -, hframe⟩
  · simp [h]
  · simp [h]
  · simp [h]
  · rcases hframe with ⟨-, h⟩ | ⟨-, -, h⟩ | ⟨-, -, -, h⟩ | ⟨rfl, -, -, -, h⟩ | ⟨rfl, -, -, hcrc, h⟩
    · simp [h]
    · simp [h]
    · simp [h]
    · simp [h]
    · rw [show n + 5 - 2 = 3 + n by omega, show n + 5 - 1 = 4 + n by omega, ← hcrc]
      simp [h]

/-- Settles O14: the operation is admitted, and its operand is what `State.operand_spec` says. -/
theorem validateCompletes : Obligations.ValidateCompletes := by
  intro s buf len exp hidle
  obtain ⟨more, draws, hoperand, hmore, hdraws⟩ := s.operand_spec buf len
  refine ⟨more, draws, (validate (buf ++ more) len exp s.crcAcc).2, hmore, hdraws, ?_,
    validate_crcAcc (buf ++ more) len exp s.crcAcc⟩
  show execValidate buf len exp s = _
  rw [execValidate, State.free_of_txIdle hidle, hoperand]

/-! ### ENCODE (R149 to R154) -/

/-- The two halves of the CRC in the trailer are the CRC (R61, R151). -/
theorem crcHigh_append_crcLow (v : Half) : crcHigh v ++ crcLow v = v :=
  BitVec.extractLsb'_append_extractLsb' (len := 8)

/-- XOR with 0xFF is the complement (R149). -/
theorem xor_ff (b : Byte) : b ^^^ 0xFF#8 = ~~~b := BitVec.xor_allOnes

/-- The frame that ENCODE emits is the one R149 describes, when the payload fits. -/
theorem encodedFrame_eq_wireFrame (header seq fill : Byte) {n : Nat} {payload : List Byte} (h : payload.length ≤ n) :
    encodedFrame header seq fill n payload = wireFrame header seq fill n payload := by
  simp [encodedFrame, frameBytes, wireFrame, trailerCrc, padTo_of_le fill h, xor_ff, crcHigh, crcLow]

/-- ENCODE for a header byte: the payload must fit (R149, R152). -/
theorem execEncode_of_payloadSize {s : State} (hidle : s.tx.phase = .txIdle) {header : Byte} {n : Nat}
    (hh : payloadSize header = some n) (seq fill : Byte) (payload : List Byte) (len : Nat) :
    execEncode header seq fill payload len s =
      if len ≤ n then
        .next { (s.operand payload len).2.emitFrame header seq fill n ((s.operand payload len).1.take len) with
          result := .none }
      else .refused .encodeDomain := by
  simp only [execEncode, State.free_of_txIdle hidle, hh]

/-- ENCODE for any other first byte (R152). -/
theorem execEncode_of_no_payloadSize {s : State} (hidle : s.tx.phase = .txIdle) {header : Byte}
    (hh : payloadSize header = none) (seq fill : Byte) (payload : List Byte) (len : Nat) :
    execEncode header seq fill payload len s = .refused .encodeDomain := by
  simp only [execEncode, State.free_of_txIdle hidle, hh]

/-- Settles O15: the operand is what `State.operand_spec` says, and its first `len` bytes fit the frame. -/
theorem encodePutsTheFrame : Obligations.EncodePutsTheFrame := by
  intro s header seq fill payload len n hidle hh hl
  obtain ⟨more, draws, hoperand, hmore, hdraws⟩ := s.operand_spec payload len
  have hsent : ((payload ++ more).take len).length = len := List.length_take_of_le (by rw [List.length_append]; omega)
  have hframe := encodedFrame_eq_wireFrame header seq fill (hsent.trans_le hl)
  refine ⟨more, draws, hmore, hdraws, by rw [← hframe, encodedFrame_length], ?_⟩
  show execEncode header seq fill payload len s = _
  rw [execEncode_of_payloadSize hidle ((payloadSize_eq_some_iff header n).2 hh), if_pos hl, hoperand, State.emitFrame,
    hframe, trailerCrc, padTo_of_le fill (hsent.trans_le hl), hsent]
  rfl

/-- Settles O16: either the first byte is no header byte, or the payload does not fit. -/
theorem encodeRefusedOutsideDomain : Obligations.EncodeRefusedOutsideDomain := by
  intro s header seq fill payload len hidle hout
  show execEncode header seq fill payload len s = _
  rcases hout with hheader | ⟨rfl, hlen⟩ | ⟨rfl, hlen⟩
  · exact execEncode_of_no_payloadSize hidle ((payloadSize_eq_none_iff header).2 hheader) ..
  · exact (execEncode_of_payloadSize hidle rfl ..).trans (if_neg (not_le.2 hlen))
  · exact (execEncode_of_payloadSize hidle rfl ..).trans (if_neg (not_le.2 hlen))

/-- Settles O17: checks 4 to 6 on the frame emitted (`validate_frame`). -/
theorem encodedFrameValidates : Obligations.EncodedFrameValidates := by
  intro header seq fill n payload acc hh hl
  have hpad := padTo_of_le fill hl
  have hverdict := validate_frame (h := header) (payload := padTo n fill payload)
    (by rw [padTo_length]; exact (payloadSize_eq_some_iff header n).2 hh) seq (seq ^^^ 0xFF#8)
    (crcHigh (trailerCrc n fill payload)) (crcLow (trailerCrc n fill payload)) seq acc
  have hcomplement : seq ^^^ (seq ^^^ 0xFF#8) = 0xFF#8 := by rw [← BitVec.xor_assoc, BitVec.xor_self, BitVec.zero_xor]
  have hcrc : crc16 0#16 (padTo n fill payload) = trailerCrc n fill payload := rfl
  rw [padTo_length, crcHigh_append_crcLow, if_neg (not_not.2 hcomplement), if_neg (not_not.2 rfl),
    if_neg (not_not.2 hcrc)] at hverdict
  refine ⟨encodedFrame_length .., congrArg Prod.fst hverdict, ?_, ?_⟩
  · simp [encodedFrame, frameBytes, hpad]
  · simp [encodedFrame, frameBytes, hpad, Nat.add_comm 3]

/-! ### decimal (R160) -/

/-- The digit character of a digit (R9). -/
def digitByte (d : Nat) : Byte := BitVec.ofNat 8 (0x30 + d)

theorem digitByte_toNat {d : Nat} (h : d < 10) : (digitByte d).toNat = 0x30 + d := by
  unfold digitByte
  rw [BitVec.toNat_ofNat]
  omega

/-- With enough fuel the digits of `v` are written, the most significant first. -/
theorem decimalAux_eq (fuel v : Nat) (acc : List Byte) (hv : 1 ≤ v) (hf : v < fuel) :
    decimalAux fuel v acc = (Nat.digits 10 v).reverse.map digitByte ++ acc := by
  induction fuel generalizing v acc with
  | zero => omega
  | succ fuel ih =>
    rw [decimalAux, Nat.digits_def' (by decide) hv]
    by_cases hlast : v / 10 = 0
    · simp [hlast, digitByte]
    · rw [if_neg hlast, ih _ _ (by omega) (by omega)]
      simp [digitByte]

theorem decimal_eq_digits {v : Nat} (hv : 1 ≤ v) : decimal v = (Nat.digits 10 v).reverse.map digitByte := by
  rw [decimal, decimalAux_eq _ _ _ hv (by omega), List.append_nil]

/-- A number with one more digit character at its end (R157). -/
def pushDigit (a : Nat) (d : Byte) : Nat := a * 10 + (d.toNat - 0x30)

/-- The value of a string of digit characters is the number whose digits they are. -/
theorem foldl_pushDigit_digitByte (l : List Nat) (h : ∀ d ∈ l, d < 10) :
    (l.reverse.map digitByte).foldl pushDigit 0 = Nat.ofDigits 10 l := by
  induction l with
  | nil => rfl
  | cons d l ih =>
    obtain ⟨hd, hl⟩ := List.forall_mem_cons.1 h
    rw [List.reverse_cons, List.map_append, List.foldl_append, ih hl, Nat.ofDigits_cons]
    simp [pushDigit, digitByte_toNat hd, Nat.mul_comm, Nat.add_comm]

/-- Settles O18: `decimal` writes the digits of `v` in base 10. -/
theorem decimalIsShortest : Obligations.DecimalIsShortest := by
  intro v hv
  have hlt : ∀ d ∈ Nat.digits 10 v, d < 10 := fun d hd => Nat.digits_lt_base (by decide) hd
  have hne : Nat.digits 10 v ≠ [] := Nat.digits_ne_nil_iff_ne_zero.2 (by omega)
  rw [decimal_eq_digits hv]
  refine ⟨?_, ?_, by simpa using hne, ?_⟩
  · intro c hc
    obtain ⟨d, hd, rfl⟩ := List.mem_map.1 hc
    have := hlt d (List.mem_reverse.1 hd)
    rw [digitByte_toNat this]
    omega
  · have hlead := Nat.getLast_digit_ne_zero 10 (m := v) (by omega)
    rw [List.head?_map, List.head?_reverse, List.getLast?_eq_some_getLast hne]
    intro h
    have := congrArg BitVec.toNat (Option.some.inj h)
    rw [digitByte_toNat (hlt _ (List.getLast_mem hne))] at this
    exact hlead (by simpa using this)
  · exact (foldl_pushDigit_digitByte _ hlt).trans (Nat.ofDigits_digits 10 v)

/-! ### ParseHeader (R156, R157) -/

/-- A byte that is no NUL belongs to the name. -/
theorem splitNul_cons_of_ne {b : Byte} (hb : b ≠ 0x00#8) (t : List Byte) :
    splitNul (b :: t) = (splitNul t).map fun r => (b :: r.1, r.2) := by
  rw [splitNul, if_neg hb]
  cases splitNul t <;> rfl

/-- What stands before the first NUL and what stands behind it (R157). -/
theorem splitNul_eq_some_iff (p name rest : List Byte) :
    splitNul p = some (name, rest) ↔ p = name ++ 0x00#8 :: rest ∧ 0x00#8 ∉ name := by
  induction p generalizing name with
  | nil => simp [splitNul]
  | cons b t ih =>
    by_cases hb : b = 0x00#8
    · cases name with
      | nil => simp [splitNul, hb, eq_comm]
      | cons x name =>
        refine iff_of_false (by simp [splitNul, hb]) ?_
        rintro ⟨hp, hname⟩
        exact hname (List.mem_cons.2 (.inl (hb.symm.trans (List.cons.inj hp).1)))
    · rw [splitNul_cons_of_ne hb, Option.map_eq_some_iff]
      constructor
      · rintro ⟨⟨before, after⟩, hsplit, ⟨⟩⟩
        obtain ⟨rfl, hname⟩ := (ih before).1 hsplit
        exact ⟨rfl, List.not_mem_cons_of_ne_of_not_mem (Ne.symm hb) hname⟩
      · rintro ⟨hp, hname⟩
        cases name with
        | nil => exact absurd (List.cons.inj hp).1 hb
        | cons x name =>
          obtain ⟨rfl, rfl⟩ := List.cons.inj hp
          exact ⟨(name, rest), (ih name).2 ⟨rfl, List.not_mem_of_not_mem_cons hname⟩, rfl⟩

/-- `digits` is a run of digit characters that what follows does not prolong (R157). -/
def MaximalRun (digits tail : List Byte) : Prop :=
  (∀ d ∈ digits, 0x30 ≤ d.toNat ∧ d.toNat ≤ 0x39) ∧
  (∀ d, tail.head? = some d → ¬ (0x30 ≤ d.toNat ∧ d.toNat ≤ 0x39))

/-- Every byte string begins with one. -/
theorem exists_maximalRun (l : List Byte) : ∃ digits tail, l = digits ++ tail ∧ MaximalRun digits tail := by
  refine ⟨l.takeWhile isDigit, l.dropWhile isDigit, List.takeWhile_append_dropWhile.symm, ?_, ?_⟩
  · exact fun d hd => (isDigit_iff d).1 (List.mem_takeWhile_imp hd)
  · intro d hd
    have hstop := l.head?_dropWhile_not isDigit
    rw [hd] at hstop
    rw [← isDigit_iff, Bool.not_eq_true]
    exact hstop

/-- More digits make no smaller number. -/
theorem le_foldl_pushDigit (digits : List Byte) (v : Nat) : v ≤ digits.foldl pushDigit v := by
  induction digits generalizing v with
  | nil => exact le_rfl
  | cons d t ih => exact le_trans (by unfold pushDigit; omega) (ih (pushDigit v d))

/-- A maximal run is read to its end, unless its value reaches the limit (R157, D19). -/
theorem scanDigits_run {limit v : Nat} {digits tail : List Byte} (hrun : MaximalRun digits tail) (k : Nat) (hv : v < limit) :
    scanDigits limit (digits ++ tail) v k =
      if digits.foldl pushDigit v < limit then some (digits.foldl pushDigit v, k + digits.length) else none := by
  obtain ⟨hdigits, htail⟩ := hrun
  induction digits generalizing v k with
  | nil =>
    rw [List.nil_append, List.foldl_nil, if_pos hv]
    cases tail with
    | nil => rfl
    | cons b t => rw [scanDigits, if_neg (mt (isDigit_iff b).1 (htail b rfl))]; rfl
  | cons d t ih =>
    obtain ⟨hd, ht⟩ := List.forall_mem_cons.1 hdigits
    have hread : scanDigits limit (d :: t ++ tail) v k =
        if limit ≤ pushDigit v d then none else scanDigits limit (t ++ tail) (pushDigit v d) (k + 1) := by
      rw [List.cons_append, scanDigits, if_pos ((isDigit_iff d).2 hd)]
      rfl
    rw [hread, List.foldl_cons]
    by_cases hlim : limit ≤ pushDigit v d
    · rw [if_pos hlim, if_neg (not_lt.2 (hlim.trans (le_foldl_pushDigit t _)))]
    · rw [if_neg hlim, ih (k + 1) (not_le.1 hlim) ht, List.length_cons, Nat.add_right_comm, Nat.add_assoc]

/-- A name, NUL, and a maximal run of digits are read as R157 says. -/
theorem parseHeader_run {limit : Nat} {name digits tail : List Byte} (hlimit : 1 ≤ limit) (hname : 0x00#8 ∉ name)
    (hrun : MaximalRun digits tail) :
    parseHeader limit (name ++ 0x00#8 :: (digits ++ tail)) =
      if digits ≠ [] ∧ 1 ≤ digits.foldl pushDigit 0 ∧ digits.foldl pushDigit 0 < limit then
        some (name, digits.foldl pushDigit 0)
      else none := by
  unfold parseHeader
  rw [(splitNul_eq_some_iff _ _ _).2 ⟨rfl, hname⟩]
  dsimp only
  rw [scanDigits_run hrun 0 hlimit]
  generalize digits.foldl pushDigit 0 = v
  by_cases hlim : v < limit
  · rw [if_pos hlim]
    cases digits with
    | nil => simp
    | cons d t =>
      by_cases hzero : v = 0
      · simp [hzero]
      · simp [hlim, hzero, Nat.one_le_iff_ne_zero]
  · simp [hlim]

/-- What is accepted holds a NUL (R157). -/
theorem parseHeader_splits {limit : Nat} {p : List Byte} {r : List Byte × Nat} (h : parseHeader limit p = some r) :
    ∃ name rest, splitNul p = some (name, rest) := by
  unfold parseHeader at h
  cases hsplit : splitNul p with
  | none => simp [hsplit] at h
  | some q => exact ⟨q.1, q.2, rfl⟩

/-- Settles O19: what follows the first NUL begins with one maximal run of digits, and `parseHeader_run` judges it. -/
theorem parseHeaderGrammar : Obligations.ParseHeaderGrammar := by
  intro limit p name v hlimit
  constructor
  · intro h
    obtain ⟨before, rest, hsplit⟩ := parseHeader_splits h
    obtain ⟨rfl, hname⟩ := (splitNul_eq_some_iff _ _ _).1 hsplit
    obtain ⟨digits, tail, rfl, hrun⟩ := exists_maximalRun rest
    rw [parseHeader_run hlimit hname hrun] at h
    obtain ⟨⟨hne, hpos, hlt⟩, hres⟩ := Option.ite_none_right_eq_some.1 h
    cases hres
    exact ⟨digits, tail, rfl, hname, hne, hrun.1, hrun.2, rfl, hpos, hlt⟩
  · rintro ⟨digits, tail, rfl, hname, hne, hdigits, htail, rfl, hpos, hlt⟩
    rw [parseHeader_run hlimit hname ⟨hdigits, htail⟩]
    exact if_pos ⟨hne, hpos, hlt⟩

/-- Settles O20: the fill behind the size ends its digit run (R161). -/
theorem parseInvertsBuild : Obligations.ParseInvertsBuild := by
  intro limit name size hname hpos hlt hfit
  obtain ⟨hdigits, -, hne, hvalue⟩ := decimalIsShortest size hpos
  refine (parseHeaderGrammar limit _ name size (by omega)).2 ⟨decimal size,
    List.replicate (128 - (headerText name size).length) 0x00#8, ?_, hname, hne, hdigits, ?_, hvalue, hpos, hlt⟩
  · rw [padTo_of_le _ hfit, headerText, List.append_assoc, List.cons_append]
  · intro d hd
    obtain ⟨-, rfl⟩ := List.mem_replicate.1 (List.mem_of_head? hd)
    decide

end Sys2Proof.Machine

/-! # 42_receiver.md: what one RX_STEP does

A unit in assembly shows in the assembler's registers and in the used part of RXBUF only (`InAssembly`), and every judgement ends
with AsmReset, which takes both away (R179). So a poll and the reception of a whole unit are compared with the state before them in
one way. The polls that complete nothing are settled by `poll_completes_nothing`, the verdicts that a state has no rule for by
`State.act_unwanted`, the Valid frames by `exec_frame_valid`, and the record of an RX_STEP by `RxNext.record`. -/

namespace Sys2Proof.Machine

/-! ### What is left alone -/

theorem sameSetting_refl (s : State) : sameSetting s s := ⟨rfl, rfl, rfl, rfl, rfl⟩

theorem sameLink_refl (s : State) : sameLink s s := ⟨rfl, rfl, rfl, rfl, rfl, rfl⟩

theorem sameInputs_refl (s : State) : sameInputs s s := ⟨sameLink_refl s, rfl, rfl⟩

/-! ### What was done on the ports -/

theorem did_nothing {s t : State} (h : t.env = s.env) : did s t [] := by simp [did, putsOf, h]

/-- What follows on the same ports without a transaction adds nothing to the record. -/
theorem did.of_env {s u t : State} {calls : List PortCall} (h : did s u calls) (ht : t.env = u.env) : did s t calls := by
  unfold did at h ⊢
  rwa [ht]

/-- One more byte put. -/
theorem did.put {s u t : State} {calls : List PortCall} {b : Byte} (h : did s u calls) (ht : t.env = u.env.put b) :
    did s t (calls ++ [.put b]) := by
  obtain ⟨htrace, hout⟩ := h
  simp [did, ht, htrace, hout, putsOf_append, putsOf]

/-- One byte put and nothing else. -/
theorem did_one_put {s t : State} {b : Byte} (h : t.env = s.env.put b) : did s t [.put b] :=
  (did_nothing (s := s) rfl).put h

/-! ### A unit in assembly -/

/-- AsmReset takes away exactly what `u` has in assembly beyond `s`: the assembler's registers and RXBUF below 1029 (R78). CRC_ACC
and the environment are compared apart. -/
structure InAssembly (s u : State) : Prop where
  rx : u.rx.cleared = s.rx.cleared
  setting : sameSetting s u
  beyond : ∀ a, 1029 ≤ a → u.rxbuf.read a = s.rxbuf.read a

namespace InAssembly

variable {s u t : State}

theorem state (h : InAssembly s u) : u.rx.state = s.rx.state := by
  rw [← Rx.cleared_state u.rx, h.rx, Rx.cleared_state]
theorem seq (h : InAssembly s u) : u.rx.seq = s.rx.seq := by
  rw [← Rx.cleared_seq u.rx, h.rx, Rx.cleared_seq]
theorem last (h : InAssembly s u) : u.rx.last = s.rx.last := by
  rw [← Rx.cleared_last u.rx, h.rx, Rx.cleared_last]
theorem now (h : InAssembly s u) : u.rx.now = s.rx.now := by
  rw [← Rx.cleared_now u.rx, h.rx, Rx.cleared_now]
theorem par (h : InAssembly s u) : u.par = s.par := h.setting.1
theorem cfg (h : InAssembly s u) : u.cfg = s.cfg := h.setting.2.1

theorem afterNak (h : InAssembly s u) (rsn : Reason) : u.rx.afterNak rsn = s.rx.afterNak rsn := by
  have cleared_afterNak : ∀ r : Rx, r.cleared.afterNak rsn = r.afterNak rsn := fun _ => rfl
  rw [← cleared_afterNak, h.rx, cleared_afterNak]

/-- After AsmReset nothing of the unit is left in RXBUF. -/
theorem rxbufCleared (h : InAssembly s u) (ht : t.rxbuf = u.rxbuf.zeroBelow 1029) : rxbufCleared s t := by
  intro a
  rw [ht, Memory.read_zeroBelow]
  split
  · rfl
  · exact h.beyond a (by omega)

/-- A unit written inside the used part of RXBUF, with any values in the assembler's registers, is in assembly. -/
theorem of_write {a : Nat} {bs : List Byte} (fits : a + bs.length ≤ 1029) (rx : u.rx.cleared = s.rx.cleared)
    (setting : sameSetting s u) (rxbuf : u.rxbuf = s.rxbuf.write a bs) : InAssembly s u where
  rx := rx
  setting := setting
  beyond x hx := by rw [rxbuf, Memory.read_write, if_neg (by omega)]

/-- A one-byte unit. -/
theorem control (s : State) (b : Byte) (acc : Half) : InAssembly s { s.withControl b with crcAcc := acc } :=
  of_write (a := 0) (bs := [b]) (by simp) rfl (sameSetting_refl s) rfl

/-- A whole frame. -/
theorem frame (s : State) {n : Nat} {bytes : List Byte} (h : bytes.length ≤ 1029) (acc : Half) :
    InAssembly s { s.withFrame n bytes with crcAcc := acc } :=
  of_write (a := 0) (bs := bytes) (by omega) rfl (sameSetting_refl s) rfl

end InAssembly

/-- One NAK answered what was read, as a NakRetry from `s` in state `st` does it (R183). -/
structure AnsweredNak (s : State) (st : RxState) (t : State) : Prop where
  rx : t.rx = s.rx.afterNak (nakReason s.par st)
  rxbuf : rxbufCleared s t
  setting : sameSetting s t
  env : t.env = s.env.put 0x15#8
  result : t.result = .status .noEvent

/-- One NAK is all that reaches the link. -/
theorem AnsweredNak.did {s t : State} {st : RxState} (h : AnsweredNak s st t) : did s t [.put 0x15#8] := did_one_put h.env

/-- Nothing is read. -/
theorem AnsweredNak.inputs {s t : State} {st : RxState} (h : AnsweredNak s st t) : sameInputs s t := by
  simp [sameInputs, sameLink, h.env]

/-- A framing error takes the unit away and answers it from `s`. -/
theorem InAssembly.framingError {s u : State} (h : InAssembly s u) (henv : u.env = s.env) :
    ∃ t, u.framingError (nakReason u.par u.rx.state) = .next t ∧ AnsweredNak s s.rx.state t ∧ t.crcAcc = u.crcAcc := by
  rw [h.par, h.state]
  exact ⟨_, State.framingError_eq u _, ⟨h.afterNak _, h.rxbufCleared rfl, h.setting, congrArg (Env.put · 0x15#8) henv, rfl⟩,
    rfl⟩

/-! ### RX_STEP, by what the poll finds -/

theorem State.rxStep_idle {s : State} (h : s.rx.state = .idle) : s.rxStep = s.latchTick.idleAction := by
  unfold State.rxStep
  rw [h]

/-- An RX_STEP in a receiving state polls. -/
theorem exec_rxStep_poll {s : State} {st : RxState} (hl : listens s st) (hr : st.receiving = true) :
    exec .rxStep s = s.latchTick.poll := by
  have ⟨_, _, hst⟩ := hl
  rw [exec_rxStep hl, State.rxStep_receiving (hst ▸ hr)]

/-- Settles O28: the Idle action is one record update. -/
theorem idlePollOpensSession : Obligations.IdlePollOpensSession := by
  intro s h
  have ⟨_, _, hidle⟩ := h
  have answer := exec_rxStep h
  rw [State.rxStep_idle hidle, State.idleAction_eq] at answer
  exact ⟨_, answer, rfl, rxbufCleared_of_zeroBelow rfl, rfl, by simp, rfl, rfl, rfl, sameSetting_refl s⟩

/-! ### Polls that complete no unit (R185) -/

/-- `CFG_SESSION_TIMEOUT` ticks have passed since LAST at the Tick() of the next RX_STEP (R181). -/
def State.late (s : State) : Prop := s.cfg.sessionTimeout.toNat ≤ (s.env.readTick.1 - s.rx.last).toNat

/-- The answer `t` to an RX_STEP in state `st` whose assembler has left `u` without a candidate: before the deadline `u` stays; in
RecvHeader the deadline returns to Idle; in the later states it is answered by NakRetry (R185, R188, R199, R202, R208). -/
structure DeadlineTested (s : State) (st : RxState) (u t : State) : Prop where
  result : t.result = .status .noEvent
  crcAcc : t.crcAcc = u.crcAcc
  setting : sameSetting s t
  waited : ¬ s.late → t.rx = u.rx ∧ t.rxbuf = u.rxbuf ∧ t.env = u.env
  gaveUp : s.late → st = .recvHeader → t.rx = { u.rx with state := .idle } ∧ t.rxbuf = u.rxbuf ∧ t.env = u.env
  nakked : s.late → st ≠ .recvHeader → AnsweredNak { s.latchTick with env := u.env } st t

/-- At most a NAK follows the assembler's action. -/
theorem DeadlineTested.env_cases {s u t : State} {st : RxState} (h : DeadlineTested s st u t) :
    t.env = u.env ∨ t.env = u.env.put 0x15#8 := by
  by_cases hlate : s.late
  · by_cases hst : st = .recvHeader
    · obtain ⟨-, -, henv⟩ := h.gaveUp hlate hst
      exact .inl henv
    · exact .inr (h.nakked hlate hst).env
  · obtain ⟨-, -, henv⟩ := h.waited hlate
    exact .inl henv

/-- The deadline seen at the end of the poll is the one of the state before it. -/
theorem InAssembly.expired_eq_true_iff {s u : State} (h : InAssembly s.latchTick u) : u.expired = true ↔ s.late := by
  unfold State.expired elapsed State.late
  rw [h.now, h.last, h.cfg, decide_eq_true_iff]
  rfl

/-- A poll that completes no unit answers, and does what `DeadlineTested` says. -/
theorem poll_completes_nothing {s u : State} {st : RxState} (hl : listens s st) (hr : st.receiving = true)
    (assembled : s.latchTick.assemble = .ok (false, u)) (held : InAssembly s.latchTick u) :
    ∃ t, exec .rxStep s = .next t ∧ DeadlineTested s st u t := by
  have ⟨_, _, hst⟩ := hl
  subst hst
  rw [exec_rxStep_poll hl hr, State.poll_none assembled]
  by_cases hlate : s.late
  · rw [if_pos (held.expired_eq_true_iff.2 hlate)]
    rcases State.deadlineAction_cases u (held.state ▸ hr) with ⟨hheader, e⟩ | ⟨hheader, e⟩ <;> rw [held.state] at hheader
    · exact ⟨_, e, rfl, rfl, held.setting, fun h => absurd hlate h, fun _ _ => ⟨rfl, rfl, rfl⟩,
        fun _ h => absurd hheader h⟩
    · have heldHere : InAssembly { s.latchTick with env := u.env } u := ⟨held.rx, held.setting, held.beyond⟩
      obtain ⟨t, answer, nak, hcrc⟩ := heldHere.framingError rfl
      exact ⟨t, e.trans answer, nak.result, hcrc, nak.setting, fun h => absurd hlate h, fun _ h => absurd h hheader,
        fun _ _ => nak⟩
  · rw [if_neg (hlate ∘ held.expired_eq_true_iff.1)]
    exact ⟨_, rfl, rfl, rfl, held.setting, fun _ => ⟨rfl, rfl, rfl⟩, fun h => absurd h hlate, fun h => absurd h hlate⟩

/-- In AwaitingSync the assembler reads one byte (R175). -/
theorem State.assemble_sync {s : State} (h : s.rx.asm = .awaitingSync) : s.assemble = s.syncAction := by
  unfold State.assemble
  rw [h]

/-- The Tick() of an RX_STEP leaves the assembler's state. -/
theorem State.latchTick_assemble_sync {s : State} (h : s.rx.asm = .awaitingSync) :
    s.latchTick.assemble = s.latchTick.syncAction := State.assemble_sync h

theorem State.assemble_body {s : State} (h : s.rx.asm = .awaitingBody) : s.assemble = s.bodyAction := by
  unfold State.assemble
  rw [h]

/-- SyncAction reads EOF (R176). -/
theorem State.syncAction_eof {s : State} (h : (s.env.get s.cfg.charTimeout).1 = none) :
    s.syncAction = .ok (false, s.noByte) := by
  unfold State.syncAction
  dsimp only
  rw [h]
  rfl

/-- SyncAction reads SOH or STX (R176). -/
theorem State.syncAction_header {s : State} (hb : 1 ≤ s.cfg.rxbufSize.toNat) {b : Byte} {n : Nat}
    (h : (s.env.get s.cfg.charTimeout).1 = some b) (hp : payloadSize b = some n) :
    s.syncAction = .ok (false, (s.tookSync b).openFrame n) := by
  rcases s.syncAction_cases hb with ⟨h', -⟩ | ⟨_, _, h', hp', e⟩ | ⟨_, h', hp', -⟩ <;> cases h.symm.trans h'
  · cases hp.symm.trans hp'
    exact e
  · cases hp.symm.trans hp'

/-- SyncAction reads any other byte: a one-byte candidate (R176). -/
theorem State.syncAction_candidate {s : State} (hb : 1 ≤ s.cfg.rxbufSize.toNat) {b : Byte}
    (h : (s.env.get s.cfg.charTimeout).1 = some b) (hp : payloadSize b = none) :
    s.syncAction = .ok (true, s.tookSync b) := by
  rcases s.syncAction_cases hb with ⟨h', -⟩ | ⟨_, _, h', hp', -⟩ | ⟨_, h', hp', e⟩ <;> cases h.symm.trans h'
  · cases hp.symm.trans hp'
  · exact e

theorem InAssembly.noByte (s : State) : InAssembly s s.noByte := ⟨rfl, sameSetting_refl s, fun _ _ => rfl⟩

/-- The one Tick() and the one LinkGet of a poll. -/
theorem did_tick_get {s u : State} {answer : Option Byte} (h : (s.env.readTick.2.get s.cfg.charTimeout).1 = answer)
    (hu : u.env = (s.env.readTick.2.get s.cfg.charTimeout).2) :
    did s u [.tick s.env.readTick.1, .get s.cfg.charTimeout answer] := by
  simp [did, hu, ← h, putsOf]

/-- LinkGet on an empty input with an empty batch arriving: EOF (R41, U11). -/
theorem Env.get_empty {e : Env} {rest : List (List Byte)} (hin : e.linkIn = []) (harr : e.arrivals = [] :: rest)
    (timeout : Word) :
    e.get timeout = (none, { e with arrivals := rest, trace := e.trace ++ [.get timeout none] }) := by
  have empty : e.arrive.linkIn = [] := by simp [e.arrive_scripted harr, hin]
  rcases e.get_cases timeout with ⟨-, h⟩ | ⟨_, _, h, -⟩
  · rw [h, e.arrive_scripted harr]
    simp
  · cases empty.symm.trans h

/-- Settles O29. -/
theorem silentPollActsOnlyOnDeadline : Obligations.SilentPollActsOnlyOnDeadline := by
  intro s st rest hl hr hasm hin harr now calls
  have read : s.env.readTick.2.get s.cfg.charTimeout =
      (none, { s.env.readTick.2 with
        arrivals := rest, trace := s.env.readTick.2.trace ++ [.get s.cfg.charTimeout none] }) :=
    Env.get_empty (by simpa using hin) (by simpa using harr) _
  have eof : (s.env.readTick.2.get s.cfg.charTimeout).1 = none := by rw [read]
  obtain ⟨t, answer, h⟩ := poll_completes_nothing hl hr
    ((State.latchTick_assemble_sync hasm).trans (State.syncAction_eof eof)) (.noByte _)
  have polled : did s s.latchTick.noByte calls := did_tick_get eof rfl
  have inputs : t.env.linkIn = [] ∧ t.env.arrivals = rest ∧ t.env.requests = s.env.requests ∧
      t.env.answers = s.env.answers := by
    have left : s.latchTick.noByte.env = _ := congrArg Prod.snd read
    rcases h.env_cases with henv | henv <;> rw [henv, left] <;> simp [hin]
  obtain ⟨hin', harr', hreq, hans⟩ := inputs
  refine ⟨t, answer, h.setting, h.crcAcc, h.result, hin', harr', hreq, hans, fun hlate => ?_, fun hlate hst => ?_,
    fun hlate hst => ?_⟩
  · obtain ⟨hrx, hbuf, henv⟩ := h.waited hlate
    exact ⟨hrx, hbuf, polled.of_env henv⟩
  · obtain ⟨hrx, hbuf, henv⟩ := h.gaveUp hlate hst
    exact ⟨hrx, hbuf, polled.of_env henv⟩
  · have nak := h.nakked hlate hst
    exact ⟨nak.rx, nak.rxbuf, polled.put nak.env⟩

/-- A byte at offset 0. -/
theorem Memory.read_write_zero (m : Memory) (b : Byte) (a : Nat) :
    (m.write 0 [b]).read a = if a = 0 then b else m.read a := by
  rw [Memory.read_write]
  by_cases ha : a = 0
  · simp [ha]
  · rw [if_neg (by simpa using ha), if_neg ha]

/-- A frame opened by its sync byte is in assembly. -/
theorem InAssembly.openFrame (s : State) (b : Byte) (n : Nat) : InAssembly s ((s.tookSync b).openFrame n) :=
  of_write (a := 0) (bs := [b]) (by simp) rfl (sameSetting_refl s) rfl

/-- Settles O30. -/
theorem syncByteOpensFrame : Obligations.SyncByteOpensFrame := by
  intro s st b n hl hr hasm hb hget hheader now after calls opened
  have hp : payloadSize b = some n := (payloadSize_eq_some_iff b n).2 hheader
  obtain ⟨t, answer, h⟩ := poll_completes_nothing hl hr
    ((State.latchTick_assemble_sync hasm).trans (State.syncAction_header (s := s.latchTick) hb hget hp)) (.openFrame _ b n)
  have polled : did s ((s.latchTick.tookSync b).openFrame n) calls := did_tick_get hget rfl
  have stored : ∀ a, ((s.latchTick.tookSync b).openFrame n).rxbuf.read a = if a = 0 then b else s.rxbuf.read a :=
    Memory.read_write_zero s.rxbuf b
  have hrxOpened : ((s.latchTick.tookSync b).openFrame n).rx = opened := by
    have hneed : 3 + n + 2 = n + 5 := by omega
    simp only [State.openFrame, hneed]
    rfl
  refine ⟨t, answer, h.result, h.crcAcc, h.setting, fun hlate => ?_, fun hlate hst => ?_, fun hlate hst => ?_⟩
  · obtain ⟨hrx, hbuf, henv⟩ := h.waited hlate
    exact ⟨hrx.trans hrxOpened, by rwa [hbuf], henv, polled.of_env henv⟩
  · obtain ⟨hrx, hbuf, henv⟩ := h.gaveUp hlate hst
    exact ⟨by rw [hrx, hrxOpened], by rwa [hbuf], henv, polled.of_env henv⟩
  · have nak := h.nakked hlate hst
    exact ⟨nak.rx, nak.rxbuf, nak.env, polled.put nak.env⟩

/-- What a frame in assembly lacks fits the used part of RXBUF (R26, R33). -/
theorem Sound.body_fits {s : State} (h : Sound s) (hasm : s.rx.asm = .awaitingBody) :
    s.rx.fill.toNat < s.rx.need.toNat ∧ s.rx.need.toNat ≤ 1029 := by
  rcases h.asm with ⟨h', -⟩ | ⟨-, -, hlt, ⟨-, hneed, -⟩ | ⟨-, hneed, -⟩⟩
  · cases hasm.symm.trans h'
  · exact ⟨hlt, by rw [hneed]; decide⟩
  · exact ⟨hlt, by rw [hneed]; decide⟩

/-- In a sound receiving state RXBUF holds the longest unit (R32, R33). -/
theorem Sound.rxbufSize_of_receiving {s : State} (h : Sound s) (hr : s.rx.state.receiving = true) :
    s.inited = true ∧ 1029 ≤ s.cfg.rxbufSize.toNat := by
  have started : s.rx.state ≠ .idle := fun hi => by rw [hi] at hr; cases hr
  have inited := h.started started
  obtain ⟨hsize, -⟩ := SoundRegs.buffers h.regs inited
  exact ⟨inited, hsize⟩

/-- BodyAction in a sound receiving state (R177). -/
theorem Sound.assemble_body {s : State} (h : Sound s) (hr : s.rx.state.receiving = true)
    (hasm : s.rx.asm = .awaitingBody) : s.assemble = .ok (decide (s.tookBody.rx.fill = s.rx.need), s.tookBody) := by
  obtain ⟨hlt, hle⟩ := h.body_fits hasm
  obtain ⟨-, hsize⟩ := h.rxbufSize_of_receiving hr
  rw [State.assemble_body hasm, State.bodyAction_eq s hlt.le (by omega)]

/-- Bytes of the body stay inside the frame. -/
theorem InAssembly.tookBody {s : State} (h : Sound s) (hasm : s.rx.asm = .awaitingBody) : InAssembly s s.tookBody := by
  obtain ⟨hlt, hle⟩ := h.body_fits hasm
  have := s.env.recv_length (s.rx.need.toNat - s.rx.fill.toNat)
  exact of_write (a := s.rx.fill.toNat) (bs := (s.env.recv (s.rx.need.toNat - s.rx.fill.toNat)).1) (by omega) rfl
    (sameSetting_refl s) rfl

/-- Settles O31. -/
theorem bodyBytesStoredInOrder : Obligations.BodyBytesStoredInOrder := by
  intro s st hs hl hr hasm now lack got after calls collected stored hlack
  have ⟨_, _, hst⟩ := hl
  have hlatch : Sound s.latchTick := hs.latch
  have incomplete : decide (s.latchTick.tookBody.rx.fill = s.latchTick.rx.need) = false := by
    obtain ⟨hlt, -⟩ := hs.body_fits hasm
    rw [decide_eq_false_iff_not, State.tookBody_complete_iff s.latchTick hlt.le]
    exact Nat.ne_of_lt hlack
  have assembled := hlatch.assemble_body (by rw [State.latchTick_rx_state, hst]; exact hr) hasm
  rw [incomplete] at assembled
  obtain ⟨t, answer, h⟩ := poll_completes_nothing hl hr assembled (.tookBody hlatch hasm)
  have polled : did s s.latchTick.tookBody calls := by
    have henv : s.latchTick.tookBody.env = (s.env.readTick.2.recv lack).2 := rfl
    simp [did, henv, calls, got, now, putsOf]
  have bytes : ∀ a, s.latchTick.tookBody.rxbuf.read a = stored a := Memory.read_write _ _ _
  refine ⟨t, answer, h.result, h.crcAcc, h.setting, fun hlate => ?_, fun hlate hst => ?_, fun hlate hst => ?_⟩
  · obtain ⟨hrx, hbuf, henv⟩ := h.waited hlate
    exact ⟨hrx, by rwa [hbuf], henv, polled.of_env henv⟩
  · obtain ⟨hrx, hbuf, henv⟩ := h.gaveUp hlate hst
    exact ⟨hrx, by rwa [hbuf], henv, polled.of_env henv⟩
  · have nak := h.nakked hlate hst
    exact ⟨nak.rx, nak.rxbuf, nak.env, polled.put nak.env⟩

end Sys2Proof.Machine

/-! # 42_receiver.md: units received

A candidate is judged where it stands in RXBUF. Verdicts that the state has no rule for (`RxState.unwanted`) are framing errors in
every receiving state alike; a Valid frame goes to its state's rule with the frame in assembly (`FrameInAssembly`). -/

namespace Sys2Proof.Machine

/-! ### A completed unit (R178) -/

/-- The assembler has handed over a candidate: a byte that opens no frame, or a frame of its first byte's format (R176, R177). -/
def Completed (u : State) : Prop :=
  (payloadSize (u.rxbuf.read 0) = none ∧ u.rx.fill = 1#11) ∨
  ∃ n, payloadSize (u.rxbuf.read 0) = some n ∧ u.rx.asm = .awaitingBody ∧ u.rx.pktSize = BitVec.ofNat 11 n ∧
    u.rx.need = BitVec.ofNat 11 (3 + n + 2) ∧ u.rx.fill = u.rx.need

/-- What a sound receiving state's assembler hands over is complete. -/
theorem Sound.assemble_completed {s u : State} (h : Sound s) (hr : s.rx.state.receiving = true)
    (assembled : s.assemble = .ok (true, u)) : Completed u := by
  obtain ⟨-, hsize⟩ := h.rxbufSize_of_receiving hr
  have readSync : ∀ b, (s.tookSync b).rxbuf.read 0 = b := fun b => Memory.read_write_zero s.rxbuf b 0
  rcases h.asm with ⟨hasm, -⟩ | ⟨hasm, hfill, -, hformat⟩
  · rw [State.assemble_sync hasm] at assembled
    rcases s.syncAction_cases (by omega) with ⟨-, e⟩ | ⟨_, _, -, -, e⟩ | ⟨b, -, hp, e⟩ <;> cases e.symm.trans assembled
    exact .inl ⟨by rw [readSync]; exact hp, rfl⟩
  · have read0 : s.tookBody.rxbuf.read 0 = s.rxbuf.read 0 := by
      change (s.rxbuf.write s.rx.fill.toNat _).read 0 = _
      rw [Memory.read_write, if_neg (by omega)]
    rw [h.assemble_body hr hasm] at assembled
    obtain ⟨hdone, rfl⟩ : decide (s.tookBody.rx.fill = s.rx.need) = true ∧ s.tookBody = u := by simpa using assembled
    have full := of_decide_eq_true hdone
    rcases hformat with ⟨hpkt, hneed, hb⟩ | ⟨hpkt, hneed, hb⟩
    · exact .inr ⟨128, by rw [read0, hb]; rfl, hasm, hpkt, hneed, full⟩
    · exact .inr ⟨1024, by rw [read0, hb]; rfl, hasm, hpkt, hneed, full⟩

/-- The candidate has the length that its first byte gives (R95). -/
theorem Completed.fill_eq {u : State} (h : Completed u) : u.rx.fill.toNat = unitLength (u.rxbuf.read 0) := by
  unfold unitLength
  rcases h with ⟨hp, hfill⟩ | ⟨n, hp, -, -, hneed, hfill⟩
  · rw [hp, hfill]; rfl
  · rw [hfill, hneed, hp, BitVec.toNat_ofNat]
    rcases (payloadSize_eq_some_iff _ _).1 hp with ⟨-, rfl⟩ | ⟨-, rfl⟩ <;> rfl

/-- Loading a one-byte candidate that stands in RXBUF changes nothing. -/
theorem State.withControl_of_candidate {u : State} (hwf : u.rxbuf.wf) (hfill : u.rx.fill = 1#11) :
    u.withControl (u.rxbuf.read 0) = u := by
  have same : u.rxbuf.write 0 [u.rxbuf.read 0] = u.rxbuf := Memory.write_same hwf rfl
  simp only [State.withControl, same, ← hfill]

/-- Loading a frame that stands in RXBUF changes nothing. -/
theorem State.withFrame_of_candidate {u : State} (hwf : u.rxbuf.wf) {n : Nat} (hasm : u.rx.asm = .awaitingBody)
    (hpkt : u.rx.pktSize = BitVec.ofNat 11 n) (hneed : u.rx.need = BitVec.ofNat 11 (3 + n + 2))
    (hfill : u.rx.fill = u.rx.need) : u.withFrame n (u.rxbuf.readRun 0 u.rx.fill.toNat) = u := by
  have same : u.rxbuf.write 0 (u.rxbuf.readRun 0 u.rx.fill.toNat) = u.rxbuf :=
    Memory.write_same hwf (by rw [Memory.length_readRun])
  have regs : { u.rx with
      pktSize := BitVec.ofNat 11 n, need := BitVec.ofNat 11 (3 + n + 2), asm := .awaitingBody
      fill := BitVec.ofNat 11 (3 + n + 2) } = u.rx := by
    rw [← hpkt, ← hneed, ← hasm]
    exact congrArg (fun f => { u.rx with fill := f }) hfill.symm
  rw [State.withFrame, same, regs]

/-- Executed, a unit is received with its own bytes loaded. -/
theorem exec_wire_loaded (s : State) {i : Instr} (hw : i.isWire = true) :
    ∃ b rest, wireBytes i = b :: rest ∧
      ((payloadSize b = none ∧ exec i s = s.receive b rest (s.loadControl b)) ∨
       ∃ n, payloadSize b = some n ∧ exec i s = s.receive b rest (s.loadFrame n (wireBytes i))) := by
  cases i with
  | soh | stx => exact ⟨_, _, rfl, .inr ⟨_, rfl, rfl⟩⟩
  | eot | ack | nak | can | c => exact ⟨_, _, rfl, .inl ⟨rfl, rfl⟩⟩
  | init | rxStep | sendFile | crc16 | validate | encode => cases hw

/-- A unit that stands complete in RXBUF is judged by its instruction as it stands (R178). -/
theorem Completed.exec_eq_judge {u : State} {st : RxState} (h : Completed u) (hl : listens u st)
    (hr : st.receiving = true) (hsize : 1029 ≤ u.cfg.rxbufSize.toNat) (hwf : u.rxbuf.wf) {i : Instr} {rest : List Byte}
    (decoded : decodeWire (u.rxbuf.readRun 0 u.rx.fill.toNat) = .ok (i, rest)) : exec i u = u.judge := by
  obtain ⟨hwellFormed, hw, happend⟩ := wireBytes_append_of_decodeWire decoded
  obtain ⟨b, tl, hbytes, hexec⟩ := exec_wire_loaded u hw
  obtain ⟨b', _, hbytes', hlen⟩ := wireBytes_length hwellFormed hw
  cases hbytes.symm.trans hbytes'
  have first : b = u.rxbuf.read 0 := by
    have hpos : 0 < u.rx.fill.toNat := by
      have := congrArg List.length happend
      simp only [hbytes, List.length_append, List.length_cons, Memory.length_readRun] at this
      omega
    have := congrArg (·[0]?) happend
    rw [Memory.getElem?_readRun, if_pos hpos, hbytes] at this
    exact Option.some.inj this
  subst first
  have whole : wireBytes i = u.rxbuf.readRun 0 u.rx.fill.toNat := by
    have := congrArg List.length happend
    rw [List.length_append, hlen, Memory.length_readRun, h.fill_eq] at this
    rw [← happend, List.length_eq_zero_iff.1 (show rest.length = 0 by omega), List.append_nil]
  rcases hexec with ⟨hp, e⟩ | ⟨n, hp, e⟩ <;> rw [e]
  · rcases h with ⟨-, hfill⟩ | ⟨_, hp', -⟩
    · refine State.receive_listens hl hr _ _ ?_
      rw [State.loadControl_eq _ (by omega), State.withControl_of_candidate hwf hfill]
    · cases hp.symm.trans hp'
  · rcases h with ⟨hp', -⟩ | ⟨m, hp', hasm, hpkt, hneed, hfill⟩ <;> cases hp.symm.trans hp'
    refine State.receive_listens hl hr _ _ ?_
    have hle : u.rx.fill.toNat ≤ 1029 := by
      rw [hfill, hneed, BitVec.toNat_ofNat]
      rcases (payloadSize_eq_some_iff _ _).1 hp with ⟨-, rfl⟩ | ⟨-, rfl⟩ <;> decide
    rw [whole, State.loadFrame_eq _ (by rw [Memory.length_readRun]; omega),
      State.withFrame_of_candidate hwf hasm hpkt hneed hfill]

/-- Settles O7: both sides judge the candidate at the state the assembler leaves. -/
theorem rxStepRunsCompletedUnit : Obligations.RxStepRunsCompletedUnit := by
  intro s u i rest h hidle hr assembled decoded
  obtain ⟨inited, hsize⟩ := h.rxbufSize_of_receiving hr
  obtain ⟨_, u', assembled', hregs, hst, -⟩ := State.assemble_sound h.latch hr
  cases assembled.symm.trans assembled'
  obtain ⟨_, _, _, _, _, hu, -⟩ := State.assemble_frame assembled
  have hcfg : u.cfg = s.cfg := by rw [hu]; rfl
  have listening : listens u s.rx.state := ⟨by rw [hu]; exact inited, by rw [hu]; exact hidle, hst⟩
  rw [exec_rxStep_poll ⟨inited, hidle, rfl⟩ hr, State.poll_candidate assembled]
  exact ((h.latch.assemble_completed hr assembled).exec_eq_judge listening hr (hcfg ▸ hsize) hregs.rxbuf decoded).symm

/-! ### The state's action on a verdict (R187, R193, R200, R203) -/

theorem State.act_recvHeader {s : State} (h : s.rx.state = .recvHeader) (v : Verdict) : s.act v = s.headerAction v := by
  rw [State.act, h]

theorem State.act_recvData {s : State} (h : s.rx.state = .recvData) (v : Verdict) : s.act v = s.dataAction v := by
  rw [State.act, h]

theorem State.act_recvEotConfirm {s : State} (h : s.rx.state = .recvEotConfirm) (v : Verdict) :
    s.act v = s.eotAction v := by
  rw [State.act, h]

theorem State.act_recvFinish {s : State} (h : s.rx.state = .recvFinish) (v : Verdict) : s.act v = s.finishAction v := by
  rw [State.act, h]

/-! ### Verdicts that a state has no rule for (R192, R198, R202, R208) -/

/-- In state `st` this verdict is a framing error: CAN apart, every Invalid one, every control byte but EOT, EOT where no file's
data has come or the end is already confirmed, and a Valid frame in RecvEotConfirm. -/
def RxState.unwanted (st : RxState) : Verdict → Prop
  | .control b => b ≠ 0x04#8 ∨ st = .recvHeader ∨ st = .recvFinish
  | .valid => st = .recvEotConfirm
  | .invalid _ => True

theorem State.act_unwanted {s : State} {v : Verdict} (hr : s.rx.state.receiving = true) (hv : s.rx.state.unwanted v) :
    s.act v = s.framingError (nakReason s.par s.rx.state) := by
  rcases s.act_cases v hr with ⟨rfl, h | h⟩ | ⟨rfl, h, -⟩ | ⟨rfl, h, -⟩ | ⟨rfl, h, -⟩ | e
  case inr.inr.inr.inr => exact e
  all_goals simp [RxState.unwanted, h] at hv

/-- A unit in assembly with a verdict that the state has no rule for. -/
theorem InAssembly.act_unwanted {s u : State} {v : Verdict} (h : InAssembly s u) (hr : s.rx.state.receiving = true)
    (hv : s.rx.state.unwanted v) (henv : u.env = s.env) :
    ∃ t, u.act v = .next t ∧ AnsweredNak s s.rx.state t ∧ t.crcAcc = u.crcAcc := by
  rw [State.act_unwanted (h.state ▸ hr) (h.state ▸ hv)]
  exact h.framingError henv

/-! ### One-byte units (R141, R142) -/

/-- A one-byte unit leaves CRC_ACC, for no check is made on it. -/
theorem exec_control_judged {s : State} {st : RxState} (hl : listens s st) (hr : st.receiving = true)
    (hb : 1 ≤ s.cfg.rxbufSize.toNat) {b : Byte} {v : Verdict}
    (verdict : validate [b] 1 s.rx.seq s.crcAcc = (v, s.crcAcc)) (notCan : v ≠ .control 0x18#8) :
    s.receive b [] (s.loadControl b) = { s.withControl b with crcAcc := s.crcAcc }.act v := by
  rw [State.receive_control_judged hl hr hb b [] verdict, if_neg notCan]

/-- A one-byte unit that the state has no rule for. -/
theorem exec_control_unwanted {s : State} {st : RxState} (hl : listens s st) (hr : st.receiving = true)
    (hb : 1 ≤ s.cfg.rxbufSize.toNat) {b : Byte} {v : Verdict}
    (verdict : validate [b] 1 s.rx.seq s.crcAcc = (v, s.crcAcc)) (notCan : v ≠ .control 0x18#8) (hv : st.unwanted v) :
    ∃ t, s.receive b [] (s.loadControl b) = .next t ∧ AnsweredNak s st t ∧ t.crcAcc = s.crcAcc := by
  have ⟨_, _, hst⟩ := hl
  subst hst
  rw [exec_control_judged hl hr hb verdict notCan]
  exact (InAssembly.control s b s.crcAcc).act_unwanted hr hv rfl

/-- Settles O33: EOT is wanted in two of the four receiving states. -/
theorem eotReceived : Obligations.EotReceived := by
  intro s st hl hr hb
  have ⟨_, _, hst⟩ := hl
  have verdict : validate [0x04#8] 1 s.rx.seq s.crcAcc = (.control 0x04#8, s.crcAcc) :=
    validate_control (by decide) [] 0 _ _
  have held := InAssembly.control s 0x04#8 s.crcAcc
  have judged : exec .eot s = _ := exec_control_judged hl hr hb verdict (by decide)
  cases st with
  | idle | recvErr | recvTerm => cases hr
  | recvData =>
    have answer := judged.trans ((State.act_recvData (held.state.trans hst) _).trans (State.dataAction_eot _))
    exact ⟨_, answer, held.rxbufCleared rfl, held.setting, sameInputs_refl s, rfl, rfl, fun _ => ⟨rfl, did_one_put rfl⟩,
      nofun, by rintro (h | h) <;> cases h⟩
  | recvEotConfirm =>
    have answer := judged.trans ((State.act_recvEotConfirm (held.state.trans hst) _).trans (State.eotAction_eot _))
    exact ⟨_, answer, held.rxbufCleared rfl, held.setting, sameInputs_refl s, rfl, rfl, nofun,
      fun _ => ⟨rfl, (did_one_put (t := s.put 0x06#8) rfl).put rfl⟩, by rintro (h | h) <;> cases h⟩
  | recvHeader | recvFinish =>
    obtain ⟨t, answer, nak, hcrc⟩ := exec_control_unwanted hl hr hb verdict (by decide) (.inr (by decide))
    exact ⟨t, answer, nak.rxbuf, nak.setting, nak.inputs, hcrc, nak.result, nofun, nofun, fun _ => ⟨nak.rx, nak.did⟩⟩

/-- Settles O34: CAN is judged before every state rule (R279). -/
theorem canReceivedTerminates : Obligations.CanReceivedTerminates := by
  intro s st hl hr hb
  have verdict : validate [0x18#8] 1 s.rx.seq s.crcAcc = (.control 0x18#8, s.crcAcc) :=
    validate_control (by decide) [] 0 _ _
  have answer : exec .can s = _ := State.receive_control_judged hl hr hb 0x18#8 [] verdict
  rw [if_pos rfl, State.terminalStep_eq] at answer
  have held := InAssembly.control s 0x18#8 s.crcAcc
  exact ⟨_, answer, rfl, held.rxbufCleared rfl, did_nothing rfl, held.setting, sameInputs_refl s, rfl, rfl⟩

/-- A byte that opens no unit is neither a control byte nor a header byte (R100). -/
theorem validate_badSync {b : Byte} (h : b ∉ [0x01#8, 0x02#8, 0x04#8, 0x06#8, 0x15#8, 0x18#8]) (exp : Byte) (acc : Half) :
    payloadSize b = none ∧ validate [b] 1 exp acc = (.invalid .sync, acc) := by
  simp only [List.mem_cons, List.not_mem_nil, or_false, not_or] at h
  obtain ⟨hsoh, hstx, heot, hack, hnak, hcan⟩ := h
  have noFrame := (payloadSize_eq_none_iff b).2 ⟨hsoh, hstx⟩
  have noControl : isControlByte b = false := by
    rw [← Bool.not_eq_true, isControlByte_iff]
    simp [heot, hack, hnak, hcan]
  exact ⟨noFrame, validate_sync noControl noFrame [] 0 exp acc⟩

/-- An RX_STEP that reads a byte that opens no unit (R176, R100). -/
theorem rxStep_badSync {s : State} {st : RxState} (hl : listens s st) (hr : st.receiving = true)
    (hb : 1 ≤ s.cfg.rxbufSize.toNat) (hasm : s.rx.asm = .awaitingSync) {b : Byte}
    (hget : (s.env.readTick.2.get s.cfg.charTimeout).1 = some b)
    (h : b ∉ [0x01#8, 0x02#8, 0x04#8, 0x06#8, 0x15#8, 0x18#8]) :
    ∃ t, exec .rxStep s = .next t ∧ AnsweredNak s.latchTick.noByte st t ∧ t.crcAcc = s.crcAcc := by
  have ⟨_, _, hst⟩ := hl
  subst hst
  obtain ⟨noFrame, verdict⟩ := validate_badSync h s.rx.seq s.crcAcc
  have judged := State.judge_eq (s.latchTick.tookSync b) hr (v := .invalid .sync) (acc := s.crcAcc)
    (by rw [show s.latchTick.tookSync b = s.latchTick.noByte.withControl b from rfl, State.withControl_candidate]
        exact verdict)
  rw [exec_rxStep_poll hl hr,
    State.poll_candidate
      ((State.latchTick_assemble_sync hasm).trans (State.syncAction_candidate (s := s.latchTick) hb hget noFrame)),
    judged, if_neg (by decide)]
  exact (InAssembly.control s.latchTick.noByte b s.crcAcc).act_unwanted hr trivial rfl

/-- Settles O35. -/
theorem straySymbolIsFramingError : Obligations.StraySymbolIsFramingError := by
  intro s st hl hr hb
  constructor
  · intro i hi
    obtain ⟨t, answer, nak, hcrc⟩ : ∃ t, exec i s = .next t ∧ AnsweredNak s st t ∧ t.crcAcc = s.crcAcc := by
      rcases hi with rfl | rfl | rfl
      · exact exec_control_unwanted hl hr hb (validate_control (by decide) [] 0 _ _) (by decide) (.inl (by decide))
      · exact exec_control_unwanted hl hr hb (validate_control (by decide) [] 0 _ _) (by decide) (.inl (by decide))
      · exact exec_control_unwanted hl hr hb (validate_sync (by decide) (by decide) [] 0 _ _) nofun trivial
    exact ⟨t, answer, nak.rx, nak.rxbuf, nak.did, nak.setting, nak.inputs, hcrc, nak.result⟩
  · intro b hasm hget hnone
    obtain ⟨t, answer, nak, hcrc⟩ := rxStep_badSync hl hr hb hasm hget fun h => hnone (List.mem_append_left [0x43#8] h)
    exact ⟨t, answer, nak.rx, nak.rxbuf, nak.env, (did_tick_get hget rfl).put nak.env, nak.setting, hcrc, nak.result⟩

/-! ### Frames (R144 to R146) -/

/-- CRC_ACC after a frame was judged: check 6 is made only behind checks 4 and 5 (R147). -/
def crcAccAfter (seq nseq exp : Byte) (payload : List Byte) (acc : Half) : Half :=
  if seq ^^^ nseq = 0xFF#8 ∧ seq = exp then crc16 0#16 payload else acc

/-- A frame is Valid exactly when it is intact and carries the sequence number expected; else it is Invalid. -/
theorem validate_frame_cases {h : Byte} {payload : List Byte} (hh : payloadSize h = some payload.length)
    (seq nseq hi lo exp : Byte) (acc : Half) :
    ∃ v, validate (frameBytes h seq nseq payload hi lo) (payload.length + 5) exp acc =
        (v, crcAccAfter seq nseq exp payload acc) ∧
      ((v = .valid ∧ intact seq nseq payload hi lo ∧ seq = exp) ∨
       ((∃ c, v = .invalid c) ∧ ¬ (intact seq nseq payload hi lo ∧ seq = exp))) := by
  unfold crcAccAfter intact
  rw [validate_frame hh]
  by_cases hx : seq ^^^ nseq = 0xFF#8
  · by_cases hs : seq = exp
    · by_cases hc : crc16 0#16 payload = hi ++ lo
      · exact ⟨.valid, by rw [if_neg (not_not.2 hx), if_neg (not_not.2 hs), if_neg (not_not.2 hc), if_pos ⟨hx, hs⟩],
          .inl ⟨rfl, ⟨hx, hc.symm⟩, hs⟩⟩
      · exact ⟨.invalid .crc, by rw [if_neg (not_not.2 hx), if_neg (not_not.2 hs), if_pos hc, if_pos ⟨hx, hs⟩],
          .inr ⟨⟨_, rfl⟩, fun h => hc h.1.2.symm⟩⟩
    · exact ⟨.invalid .sequence, by simp [hx, hs], .inr ⟨⟨_, rfl⟩, fun h => hs h.2⟩⟩
  · exact ⟨.invalid .complement, by simp [hx], .inr ⟨⟨_, rfl⟩, fun h => hx h.1.1⟩⟩

/-- The frame with this payload is in assembly, judged, on the ports of `s`. -/
structure FrameInAssembly (s u : State) (bytes : List Byte) : Prop extends InAssembly s u where
  env : u.env = s.env
  payload : u.payload = bytes
  pktSize : u.rx.pktSize.toNat = bytes.length

/-- With a frame in assembly the consumer's answer is the script's next (R47, R48). -/
theorem FrameInAssembly.answer {s u : State} {bytes : List Byte} (h : FrameInAssembly s u bytes) {a : Bool}
    {rest : List Bool} (hans : s.env.answers = a :: rest) : u.env.answer = (a, { s.env with answers := rest }) := by
  rw [h.env, s.env.answer_scripted hans]

/-- A loaded frame is one in assembly. -/
theorem FrameInAssembly.withFrame (s : State) (h seq nseq hi lo : Byte) {payload : List Byte} (hle : payload.length ≤ 1024)
    (acc : Half) :
    FrameInAssembly s { s.withFrame payload.length (frameBytes h seq nseq payload hi lo) with crcAcc := acc } payload where
  toInAssembly := .frame s (by rw [frameBytes_length]; omega) acc
  env := rfl
  payload := s.withFrame_payload hle
  pktSize := by
    change (BitVec.ofNat 11 payload.length).toNat = payload.length
    rw [BitVec.toNat_ofNat]
    omega

/-- A frame received in a receiving state is judged in assembly: the state acts on its verdict (R178). -/
theorem exec_frame_acts {s : State} {st : RxState} {i : Instr} {seq nseq hi lo : Byte} {payload : List Byte}
    (hf : isFrame i seq nseq payload hi lo) (hl : listens s st) (hr : st.receiving = true)
    (hb : payload.length + 5 ≤ s.cfg.rxbufSize.toNat) :
    ∃ u v, exec i s = u.act v ∧ FrameInAssembly s u payload ∧
      u.crcAcc = crcAccAfter seq nseq s.rx.seq payload s.crcAcc ∧
      ((v = .valid ∧ intact seq nseq payload hi lo ∧ seq = s.rx.seq) ∨
       ((∃ c, v = .invalid c) ∧ ¬ (intact seq nseq payload hi lo ∧ seq = s.rx.seq))) := by
  obtain ⟨header, hsize, hle, judged⟩ := exec_frame_judged hl hr hf hb
  obtain ⟨v, verdict, hv⟩ := validate_frame_cases hsize seq nseq hi lo s.rx.seq s.crcAcc
  have notCan : v ≠ .control 0x18#8 := by rcases hv with ⟨rfl, -⟩ | ⟨⟨_, rfl⟩, -⟩ <;> nofun
  have acts := judged v _ verdict
  rw [if_neg notCan] at acts
  exact ⟨_, v, acts, .withFrame s header seq nseq hi lo hle _, rfl, hv⟩

/-- Settles O36: a frame is unwanted when it is Invalid, and in RecvEotConfirm also when it is Valid. -/
theorem unwantedFrameIsFramingError : Obligations.UnwantedFrameIsFramingError := by
  intro s st i seq nseq payload hi lo hf hl hr hb hbad
  have ⟨_, _, hst⟩ := hl
  subst hst
  obtain ⟨u, v, hexec, held, hacc, hv⟩ := exec_frame_acts hf hl hr hb
  have unwanted : s.rx.state.unwanted v := by
    rcases hv with ⟨rfl, hintact, hseq⟩ | ⟨⟨_, rfl⟩, -⟩
    · rcases hbad with h | h | h
      · exact absurd hintact h
      · exact absurd hseq h
      · exact h
    · exact trivial
  obtain ⟨t, answer, nak, hcrc⟩ := held.act_unwanted hr unwanted held.env
  exact ⟨t, hexec.trans answer, nak.rx, nak.rxbuf, nak.did, nak.setting, nak.inputs, nak.result, hcrc.trans hacc⟩

/-- A Valid frame goes to its state's rule, with its CRC left in CRC_ACC. -/
theorem exec_frame_valid {s : State} {st : RxState} {i : Instr} {seq nseq hi lo : Byte} {payload : List Byte}
    (hf : isFrame i seq nseq payload hi lo) (hl : listens s st) (hr : st.receiving = true)
    (hb : payload.length + 5 ≤ s.cfg.rxbufSize.toNat) (hintact : intact seq nseq payload hi lo) (hseq : seq = s.rx.seq) :
    ∃ u, exec i s = u.act .valid ∧ FrameInAssembly s u payload ∧ u.rx.state = st ∧ u.crcAcc = crc16 0#16 payload := by
  have ⟨_, _, hst⟩ := hl
  obtain ⟨u, v, hexec, held, hacc, ⟨rfl, -⟩ | ⟨-, hbad⟩⟩ := exec_frame_acts hf hl hr hb
  · exact ⟨u, hexec, held, held.state.trans hst, by rw [hacc, crcAccAfter, if_pos ⟨hintact.1, hseq⟩]⟩
  · exact absurd ⟨hintact, hseq⟩ hbad

/-- Settles O37: the two answers of OnPacket are the two cases of the rule. -/
theorem dataPacketReceived : Obligations.DataPacketReceived := by
  intro s i seq nseq payload hi lo a rest hf hl hb hintact hseq hans
  obtain ⟨u, hexec, held, hst, hcrc⟩ := exec_frame_valid hf hl rfl hb hintact hseq
  have rule : u.act .valid = u.dataFrame := State.act_recvData hst _
  have asked := held.answer hans
  have answered : u.env.answer.1 = a := congrArg Prod.fst asked
  rcases u.dataFrame_cases with ⟨ha, e⟩ | ⟨ha, e⟩ <;> cases answered.symm.trans ha
  · rw [asked, held.rx, held.payload, held.pktSize, held.seq, held.now] at e
    refine ⟨_, (hexec.trans rule).trans e, held.rxbufCleared rfl, sameLink_refl s, rfl, rfl, held.setting, hcrc, rfl,
      fun _ => ⟨rfl, ?_⟩, nofun⟩
    simp [did, putsOf]
  · rw [asked, held.rx, held.payload, held.pktSize] at e
    refine ⟨_, (hexec.trans rule).trans e, held.rxbufCleared rfl, sameLink_refl s, rfl, rfl, held.setting, hcrc, rfl,
      nofun, fun _ => ⟨rfl, ?_⟩⟩
    simp [did, putsOf]

/-- Settles O38: the payload parses or not, and OnHeader answers one or the other. -/
theorem headerFrameReceived : Obligations.HeaderFrameReceived := by
  intro s i seq nseq payload hi lo a rest hf hl hb hintact hseq hans
  obtain ⟨u, hexec, held, hst, hcrc⟩ := exec_frame_valid hf hl rfl hb hintact hseq
  have rule : u.act .valid = u.headerFrame := State.act_recvHeader hst _
  have asked := held.answer hans
  have answered : u.env.answer.1 = a := congrArg Prod.fst asked
  rcases u.headerFrame_cases with ⟨hparse, e⟩ | ⟨name, size, hparse, ⟨ha, e⟩ | ⟨ha, e⟩⟩ <;>
    rw [held.par, held.payload] at hparse <;> rw [held.rx] at e
  · refine ⟨_, (hexec.trans rule).trans e, held.rxbufCleared rfl, ?_, ?_, held.setting, hcrc, rfl,
      fun _ => ⟨rfl, did_nothing held.env, congrArg Env.answers held.env⟩, fun _ _ h => by cases hparse.symm.trans h⟩
    · simp [sameLink, held.env]
    · exact congrArg Env.draws held.env
  · cases answered.symm.trans ha
    rw [asked] at e
    refine ⟨_, (hexec.trans rule).trans e, held.rxbufCleared rfl, sameLink_refl s, rfl, held.setting, hcrc, rfl,
      fun h => by (cases hparse.symm.trans h), fun name' size' h => ?_⟩
    cases hparse.symm.trans h
    exact ⟨rfl, fun _ => ⟨rfl, by simp [did, putsOf]⟩, nofun⟩
  · cases answered.symm.trans ha
    rw [asked, held.now] at e
    refine ⟨_, (hexec.trans rule).trans e, held.rxbufCleared rfl, sameLink_refl s, rfl, held.setting, hcrc, rfl,
      fun h => by (cases hparse.symm.trans h), fun name' size' h => ?_⟩
    cases hparse.symm.trans h
    exact ⟨rfl, nofun, fun _ => ⟨rfl, by simp [did, putsOf]⟩⟩

/-- Payload byte 0 stands at offset 3 (R65). -/
theorem State.read_three_of_payload {s : State} {first : Byte} {others : List Byte} (h : s.payload = first :: others) :
    s.rxbuf.read 3 = first := by
  unfold State.payload at h
  cases hn : s.rx.pktSize.toNat with
  | zero => rw [hn] at h; cases h
  | succ n =>
    rw [hn] at h
    exact (List.cons.inj h).1

/-- Settles O39: payload byte 0 decides. -/
theorem closingFrameReceived : Obligations.ClosingFrameReceived := by
  intro s i seq nseq first others hi lo hf hl hb hintact hseq
  obtain ⟨u, hexec, held, hst, hcrc⟩ := exec_frame_valid hf hl rfl hb hintact hseq
  have rule : u.act .valid = u.closingFrame := State.act_recvFinish hst _
  have byte0 := State.read_three_of_payload held.payload
  rcases u.closingFrame_cases with ⟨h0, e⟩ | ⟨h0, e⟩ <;> rw [byte0] at h0 <;> rw [held.rx] at e
  · rw [held.env] at e
    exact ⟨_, (hexec.trans rule).trans e, held.rxbufCleared rfl, sameInputs_refl s, held.setting, hcrc,
      fun _ => ⟨rfl, by simp [did, putsOf], rfl⟩, fun h => absurd h0 h⟩
  · refine ⟨_, (hexec.trans rule).trans e, held.rxbufCleared rfl, ?_, held.setting, hcrc, fun h => absurd h h0,
      fun _ => ⟨rfl, did_nothing held.env, rfl⟩⟩
    simp [sameInputs, sameLink, held.env]

end Sys2Proof.Machine

/-! # 42_receiver.md, 60_exceptions.md: the record of an RX_STEP

The record of an RX_STEP is its Tick(), then at most one read of the link, then what one row of R171, the deadline or the terminal
action adds. `RxNext.record` says both what stands in it and how the status tells of OnFinish. -/

namespace Sys2Proof.Machine

/-- The receiver's port discipline for a stretch of the record, with at most `reads` reads of the link (R172, R209). -/
def Disciplined (reads : Nat) (calls : List PortCall) : Prop :=
  calls.all receiverMay = true ∧ calls.countP isTick = 0 ∧ calls.countP isLinkRead ≤ reads ∧
    calls.countP isCallback ≤ 1 ∧ (putsOf calls).length ≤ 5

/-- How the status `r` of an RX_STEP from `s` to `t` tells of OnFinish in a stretch `calls` at the record's end (R173, R283). -/
inductive StatusTold (s t : State) (calls : List PortCall) : RxStatus → Prop where
  | noEvent (quiet : finishesOf calls = []) : StatusTold s t calls .noEvent
  | success (before : List PortCall) (last : calls = before ++ [.put 0x06#8, .onFinish .success])
      (finishes : finishesOf calls = [.success]) (puts : putsOf calls = [0x06#8]) (was : s.rx.state = .recvFinish)
      (is : t.rx.state = .idle) : StatusTold s t calls .success
  | failure (before : List PortCall)
      (last : calls = before ++ (List.replicate 5 (.put 0x18#8) ++ [.onFinish s.rx.reason]))
      (finishes : finishesOf calls = [s.rx.reason]) (puts : putsOf calls = List.replicate 5 0x18#8)
      (was : s.rx.state = .recvErr ∨ s.rx.state = .recvTerm) (is : t.rx.state = .idle) : StatusTold s t calls .failure

/-- A transaction that puts nothing and calls no OnFinish may go before. -/
theorem StatusTold.cons {s t : State} {calls : List PortCall} {r : RxStatus} (h : StatusTold s t calls r) {c : PortCall}
    (hputs : putsOf [c] = []) (hfinishes : finishesOf [c] = []) : StatusTold s t (c :: calls) r := by
  have puts : putsOf (c :: calls) = putsOf calls := by
    rw [← List.singleton_append, putsOf_append, hputs, List.nil_append]
  have finishes : finishesOf (c :: calls) = finishesOf calls := by
    rw [← List.singleton_append, finishesOf_append, hfinishes, List.nil_append]
  cases h with
  | noEvent quiet => exact .noEvent (finishes.trans quiet)
  | success before last hf hp was is =>
    exact .success (c :: before) (congrArg (c :: ·) last) (finishes.trans hf) (puts.trans hp) was is
  | failure before last hf hp was is =>
    exact .failure (c :: before) (congrArg (c :: ·) last) (finishes.trans hf) (puts.trans hp) was is

/-- A read of the link may go before a stretch without one. -/
theorem Disciplined.cons_read {calls : List PortCall} (h : Disciplined 0 calls) {c : PortCall} (hc : isLinkRead c = true) :
    Disciplined 1 (c :: calls) := by
  obtain ⟨may, ticks, reads, callbacks, puts⟩ := h
  obtain ⟨hputs, -, htick, hcallback, hmay⟩ := quiet_of_isLinkRead hc
  have same : putsOf (c :: calls) = putsOf calls := by
    rw [← List.singleton_append, putsOf_append, hputs, List.nil_append]
  refine ⟨by simp [hmay, may], by simp [htick, ticks], ?_, by simpa [hcallback] using callbacks, same ▸ puts⟩
  rw [List.countP_cons_of_pos hc]
  omega

/-- The record of an RX_STEP from `s` to `t`: its Tick() and then `calls`, with the status they go with. -/
structure StepRecord (s t : State) (calls : List PortCall) (r : RxStatus) : Prop where
  trace : t.env.trace = s.env.trace ++ .tick s.env.readTick.1 :: calls
  result : t.result = .status r
  disciplined : Disciplined 1 calls
  told : StatusTold s t calls r

/-- A poll's record: the link read, then what follows the assembler's action. -/
theorem exists_record_of_poll {s u t : State} {done : Bool} (assembled : s.latchTick.assemble = .ok (done, u))
    {calls : List PortCall} {r : RxStatus} (trace : t.env.trace = u.env.trace ++ calls) (result : t.result = .status r)
    (disciplined : Disciplined 0 calls) (told : StatusTold s t calls r) : ∃ calls r, StepRecord s t calls r := by
  obtain ⟨_, _, _, _, c, -, hread, hc, -⟩ := State.assemble_frame assembled
  obtain ⟨hputs, hfinishes, -⟩ := quiet_of_isLinkRead hc
  exact ⟨c :: calls, r, by simp [trace, hread], result, disciplined.cons_read hc, told.cons hputs hfinishes⟩

/-- A row's part of the record. -/
theorem Row.record {u : State} {rx : Rx} {env : Env} {r : Result} (h : Row u rx env r) {s : State}
    (hst : u.rx.state = s.rx.state) (acc : Half) :
    ∃ calls status, env.trace = u.env.trace ++ calls ∧ r = .status status ∧ Disciplined 0 calls ∧
      StatusTold s (u.afterRow acc rx env r) calls status := by
  obtain ⟨calls, trace, -, hstatus, may, ticks, reads, callbacks, puts⟩ := h.trace
  have disciplined : Disciplined 0 calls := ⟨may, ticks, reads.le, callbacks, puts⟩
  rcases hstatus with ⟨rfl, quiet⟩ | ⟨rfl, rfl, was, is⟩
  · exact ⟨calls, .noEvent, trace, rfl, disciplined, .noEvent quiet⟩
  · exact ⟨_, .success, trace, rfl, disciplined, .success [] rfl rfl rfl (hst ▸ was) is⟩

/-- Every RX_STEP that answers leaves such a record. -/
theorem RxNext.record {s t : State} (h : RxNext s t) : ∃ calls r, StepRecord s t calls r := by
  cases h with
  | opened _ answer =>
    rw [State.idleAction_eq] at answer
    cases answer
    exact ⟨[.clearIn, .put 0x43#8], .noEvent, by simp, rfl, by simp [Disciplined, receiverMay, isTick, isLinkRead,
      isCallback, putsOf], .noEvent rfl⟩
  | delivered pre answer =>
    rw [State.terminalAction_eq] at answer
    cases answer
    exact ⟨List.replicate 5 (.put 0x18#8) ++ [.onFinish s.rx.reason], .failure, by simp, rfl,
      by simp [Disciplined, receiverMay, isTick, isLinkRead, isCallback, putsOf], .failure [] rfl rfl rfl pre rfl⟩
  | @judged u acc _ _ _ _ assembled row =>
    obtain ⟨-, -, hst, -⟩ := State.assemble_keeps assembled
    obtain ⟨calls, status, trace, rfl, disciplined, told⟩ := row.record (s := s) hst acc
    exact exists_record_of_poll assembled trace rfl disciplined told
  | late receiving assembled answer =>
    obtain ⟨-, -, hst, -⟩ := State.assemble_keeps assembled
    obtain ⟨result, -, -, ⟨-, henv, -⟩ | ⟨henv, -⟩⟩ := State.deadlineAction_next (by rw [hst]; exact receiving) answer
    · exact exists_record_of_poll assembled (calls := []) (by simp [henv]) result (by simp [Disciplined, putsOf]) (.noEvent rfl)
    · exact exists_record_of_poll assembled (calls := [.put 0x15#8]) (by simp [henv]) result
        ⟨rfl, rfl, Nat.le_refl 0, Nat.zero_le 1, by decide⟩ (.noEvent rfl)
  | waited _ assembled =>
    exact exists_record_of_poll assembled (calls := []) (by simp) rfl (by simp [Disciplined, putsOf]) (.noEvent rfl)

/-- An RX_STEP that answers was admitted, and left a record. -/
theorem exec_rxStep_record {s t : State} (h : exec .rxStep s = .next t) : ∃ calls r, StepRecord s t calls r := by
  change execRxStep s = .next t at h
  unfold execRxStep at h
  split at h
  · obtain ⟨-, answer⟩ := State.free_next h
    exact (State.rxStep_next answer).record
  · cases h

/-- Settles O55. -/
theorem rxStepPortDiscipline : Obligations.RxStepPortDiscipline := by
  intro s t h
  obtain ⟨calls, r, record⟩ := exec_rxStep_record h
  exact ⟨calls, record.trace, record.disciplined⟩

/-- Settles O56: the Tick() before the rest calls nobody. -/
theorem statusTellsOnFinish : Obligations.StatusTellsOnFinish := by
  intro s t h
  obtain ⟨calls, r, record⟩ := exec_rxStep_record h
  refine ⟨_, r, record.trace, record.result, ?_⟩
  cases record.told.cons (c := .tick s.env.readTick.1) rfl rfl with
  | noEvent quiet => exact ⟨fun _ => quiet, nofun, nofun⟩
  | success before last finishes puts was is =>
    exact ⟨nofun, fun _ => ⟨⟨before, last⟩, finishes, puts, was, is⟩, nofun⟩
  | failure before last finishes puts was is =>
    exact ⟨nofun, nofun, fun _ => ⟨⟨before, last⟩, finishes, puts, was, is⟩⟩

end Sys2Proof.Machine

/-! # 43_sender.md: the attempts and the waits of a run

A step of a run is an attempt (R233, R234, R241) or one turn of a wait (R232). The state an attempt leads to is
`State.attempted`, whatever it has sent; a byte read in a wait completes the step, ends the attempt or is dropped
(`State.txByte_goal`, `State.txByte_repeats`, `State.txByte_dropped`), and the step after the completed one is the table of
R230 (`State.txAdvance_waitC1` and what follows it). -/

namespace Sys2Proof.Machine

/-! ### SEND_FILE (R230, R236, R237) -/

/-- Settles O41: the state reached is `State.beginSend`. -/
theorem sendFileBegins : Obligations.SendFileBegins := by
  intro s name file size ⟨inited, outside, idle⟩ noNul pos small short given
  have adm : admissible s.par.filesizeLimit name size file = true :=
    (admissible_iff _ _ _ _).2 ⟨noNul, pos, small, short, given⟩
  have answer : execSendFile name size file s = .next (s.beginSend name size file) := by
    simp only [execSendFile, inited, State.free_of_txIdle outside, idle, adm, if_true, State.beginSend]
  exact ⟨_, answer, rfl, sameReceiver_refl s, rfl, rfl, rfl, rfl⟩

/-! ### The state an attempt leads to (R233, R234, R241) -/

/-- An attempt begun: it is counted, `sent` is the environment after what it put on the link, and one Tick arms its wait. -/
def State.attempted (s : State) (sent : Env) (acc : Half) : State :=
  { s with
    crcAcc := acc
    env := sent.readTick.2
    tx := { s.tx with attempt := s.tx.attempt + 1#8, waiting := true, t0 := s.env.readTick.1 } }

theorem State.txCount_txArm (s : State) : s.txCount.txArm = s.attempted s.env s.crcAcc := rfl

theorem State.txCount_put_txArm (s : State) (b : Byte) :
    (s.txCount.put b).txArm = s.attempted (s.env.put b) s.crcAcc := by
  unfold State.attempted
  rw [← Env.readTick_put s.env b]
  rfl

theorem State.txCount_sendFramed (s : State) (header seq fill : Byte) (n : Nat) (payload : List Byte) :
    s.txCount.sendFramed header seq fill n payload =
      s.attempted (s.env.puts (encodedFrame header seq fill n payload)).flush (trailerCrc n fill payload) :=
  State.sendFramed_eq ..

/-- An attempt of a wait for 'C' puts nothing (R233). -/
theorem step_attempt_waitC {s : State} (hw : s.tx.waiting = false) (budget : s.tx.attempt.toNat < s.par.txRetryLimit.toNat)
    (hp : s.tx.phase = .waitC1 ∨ s.tx.phase = .waitC2 ∨ s.tx.phase = .waitC3) :
    step s = .next (s.attempted s.env s.crcAcc) := by
  have inRun : s.tx.phase ≠ .txIdle := by rcases hp with h | h | h <;> simp [h]
  rw [step_begin s inRun hw, ← State.txCount_txArm]
  have outcomes := s.txBegin_cases inRun
  rcases hp with h | h | h <;> simpa [h, budget.not_ge, budget] using outcomes

/-- An attempt of an EOT phase puts one EOT (R246, R247). -/
theorem step_attempt_eot {s : State} (hw : s.tx.waiting = false) (budget : s.tx.attempt.toNat < s.par.txRetryLimit.toNat)
    (hp : s.tx.phase = .eotA ∨ s.tx.phase = .eotB) : step s = .next (s.attempted (s.env.put 0x04#8) s.crcAcc) := by
  have inRun : s.tx.phase ≠ .txIdle := by rcases hp with h | h <;> simp [h]
  rw [step_begin s inRun hw, ← State.txCount_put_txArm]
  have outcomes := s.txBegin_cases inRun
  rcases hp with h | h <;> simpa [h, budget.not_ge, budget] using outcomes

/-- Settles O43. -/
theorem shortAttemptBegins : Obligations.ShortAttemptBegins := by
  intro s p hp hw budget short
  subst hp
  by_cases heot : s.tx.phase = .eotA ∨ s.tx.phase = .eotB
  · refine ⟨_, step_attempt_eot hw budget heot, rfl, ?_, Env.readTick_linkIn _, Env.readTick_requests _, sameReceiver_refl s,
      rfl, rfl, rfl⟩
    simp [did, State.attempted, heot, putsOf]
  · have hwait : s.tx.phase = .waitC1 ∨ s.tx.phase = .waitC2 ∨ s.tx.phase = .waitC3 := by
      simp only [List.mem_cons, List.not_mem_nil, or_false] at short
      tauto
    refine ⟨_, step_attempt_waitC hw budget hwait, rfl, ?_, Env.readTick_linkIn _, Env.readTick_requests _,
      sameReceiver_refl s, rfl, rfl, rfl⟩
    simp [did, State.attempted, heot, putsOf]

/-- Settles O45. -/
theorem exhaustedBudgetFails : Obligations.ExhaustedBudgetFails := by
  intro s inRun hw used
  rw [step_begin s inRun hw]
  rcases s.txBegin_cases inRun with ⟨-, e⟩ | ⟨budget, -⟩
  · rw [e, State.txEnd, ← hw]
  · omega

/-! ### Attempts that send a frame (R234, R238, R242, R249) -/

/-- The size choice of R242 in the run's own registers. -/
theorem State.txPacket_cases (s : State) :
    ((s.cfg.use1k = true ∧ 1024 ≤ s.tx.size - s.tx.off.toNat) ∧ s.txPacket = (0x02#8, 1024)) ∨
    (¬ (s.cfg.use1k = true ∧ 1024 ≤ s.tx.size - s.tx.off.toNat) ∧
      s.txPacket = (0x01#8, min (s.tx.size - s.tx.off.toNat) 128)) := by
  rcases packetChoice_cases s.cfg.use1k (s.tx.size - s.tx.off.toNat) with ⟨hk, hrem, h⟩ | ⟨hsmall, h⟩
  · exact .inl ⟨⟨hk, hrem⟩, h⟩
  · exact .inr ⟨hsmall, h⟩

/-- The payload and fill of a frame, between its first three bytes and its CRC (R149, R150). -/
theorem wireFrame_body (header seq fill : Byte) (n : Nat) (payload : List Byte) :
    ((wireFrame header seq fill n payload).drop 3).take ((wireFrame header seq fill n payload).length - 5) =
      payload ++ List.replicate (n - payload.length) fill := by
  unfold wireFrame
  generalize payload ++ List.replicate (n - payload.length) fill = body
  simp

/-- The frame an attempt of the current step sends: header packet, closing packet, or the data packet at TX_OFF. -/
def State.attemptFrame (s : State) : List Byte :=
  if s.tx.phase = .header then wireFrame 0x01#8 0#8 0x00#8 128 (s.tx.name ++ 0x00#8 :: decimal s.tx.size)
  else if s.tx.phase = .closing then wireFrame 0x01#8 0#8 0x00#8 128 []
  else if s.cfg.use1k = true ∧ 1024 ≤ s.tx.size - s.tx.off.toNat then
    wireFrame 0x02#8 s.tx.seq 0x1A#8 1024 ((s.tx.file.drop s.tx.off.toNat).take 1024)
  else wireFrame 0x01#8 s.tx.seq 0x1A#8 128 ((s.tx.file.drop s.tx.off.toNat).take (min (s.tx.size - s.tx.off.toNat) 128))

theorem State.attemptFrame_header {s : State} (h : s.tx.phase = .header) :
    s.attemptFrame = wireFrame 0x01#8 0#8 0x00#8 128 (s.tx.name ++ 0x00#8 :: decimal s.tx.size) := if_pos h

/-- An attempt with `frame` sent whole, one flush, its CRC in CRC_ACC (R234, R241). -/
def State.framed (s : State) (frame : List Byte) : State :=
  s.attempted (s.env.puts frame).flush (crc16 0#16 ((frame.drop 3).take (frame.length - 5)))

@[simp] theorem State.framed_trace (s : State) (frame : List Byte) :
    (s.framed frame).env.trace = s.env.trace ++ frame.map .put ++ [.flush, .tick s.env.readTick.1] := by
  simp [State.framed, State.attempted]

/-- What ENCODE emits for a payload that fits is the frame of R149. -/
theorem State.txCount_sendFramed_of_fits (s : State) (header seq fill : Byte) {n : Nat} {payload : List Byte}
    (fits : payload.length ≤ n) :
    s.txCount.sendFramed header seq fill n payload = s.framed (wireFrame header seq fill n payload) := by
  rw [State.txCount_sendFramed, State.framed, wireFrame_body, encodedFrame_eq_wireFrame _ _ _ fits, trailerCrc,
    padTo_of_le fill fits]

/-- An attempt of a sound run in a phase that sends a frame (R238, R242, R249): TXBUF holds the header payload, and FILE the
bytes of the packet. -/
theorem Sound.step_framed {s : State} (sound : Sound s) (hw : s.tx.waiting = false)
    (budget : s.tx.attempt.toNat < s.par.txRetryLimit.toNat) (hp : s.tx.phase ∈ [TxPhase.header, .data, .closing]) :
    step s = .next (s.framed s.attemptFrame) := by
  have inRun : s.tx.phase ≠ .txIdle := by rintro h; simp [h] at hp
  obtain ⟨-, -, adm, -, -, inFile, buffer⟩ := sound.runOf inRun
  obtain ⟨-, -, -, short, given⟩ := (admissible_iff _ _ _ _).1 adm
  have outcomes := s.txBegin_cases inRun
  rw [step_begin s inRun hw]
  simp only [List.mem_cons, List.not_mem_nil, or_false] at hp
  unfold State.attemptFrame
  rcases hp with h | h | h
  · have begun : s.txBegin = .next (s.txCount.sendFramed 0x01#8 0#8 0x00#8 128 (s.txbuf.readRun 0 s.headerLen)) := by
      simpa [h, budget.not_ge, budget] using outcomes
    rw [begun, buffer h, State.txCount_sendFramed_of_fits _ _ _ _ (by rw [headerText_length]; exact short), if_pos h]
    rfl
  · have begun : s.txBegin = .next (s.txCount.sendFramed s.txPacket.1 s.tx.seq 0x1A#8 ((payloadSize s.txPacket.1).getD 0)
        ((s.tx.file.drop s.tx.off.toNat).take s.txPacket.2)) := by
      have available : s.tx.off.toNat + s.txPacket.2 ≤ s.tx.file.length := by
        have := packetChoice_le s.cfg.use1k (s.tx.size - s.tx.off.toNat)
        have := inFile h
        unfold State.txPacket
        omega
      simpa [h, budget.not_ge, budget, available, available.not_gt] using outcomes
    rw [begun, h, if_neg (by decide), if_neg (by decide)]
    rcases s.txPacket_cases with ⟨large, e⟩ | ⟨small, e⟩
    · rw [if_pos large, e]
      exact congrArg _ (State.txCount_sendFramed_of_fits _ _ _ _ (List.length_take_le _ _))
    · rw [if_neg small, e]
      exact congrArg _ (State.txCount_sendFramed_of_fits _ _ _ _ ((List.length_take_le _ _).trans (min_le_right _ _)))
  · have begun : s.txBegin = .next (s.txCount.sendFramed 0x01#8 0#8 0x00#8 128 []) := by
      simpa [h, budget.not_ge, budget] using outcomes
    rw [begun, State.txCount_sendFramed_of_fits _ _ _ _ (Nat.zero_le _), h, if_neg (by decide), if_pos rfl]

/-- Settles O44: `State.framed`, read field by field. -/
theorem frameAttemptBegins : Obligations.FrameAttemptBegins := by
  intro s sound hw budget hp
  exact ⟨_, sound.step_framed hw budget hp, rfl, s.framed_trace _, Env.readTick_linkOut _, Env.readTick_linkIn _,
    Env.readTick_requests _, rfl, sameReceiver_refl s, rfl, rfl⟩

/-! ### A byte read in a wait (R232, R251) -/

/-- Settles O49. -/
theorem canEndsTheRun : Obligations.CanEndsTheRun := by
  intro s p hwait
  rw [exec_symbol_awaits hwait (b := 0x18#8) rfl]
  rcases s.txByte_cases 0x18#8 with ⟨-, e⟩ | ⟨h, -⟩ | ⟨h, -⟩ | ⟨h, -⟩
  · exact e
  all_goals exact absurd rfl h

/-- The byte the phase waits for completes its step. -/
theorem State.txByte_goal {s : State} (hp : s.tx.phase ≠ .txIdle) : s.txByte (txGoal s.tx.phase) = s.txAdvance := by
  have accepted : txGoal s.tx.phase ∈ txAccept s.tx.phase := by
    revert hp; cases s.tx.phase <;> decide
  have notCan : txGoal s.tx.phase ≠ 0x18#8 := by cases s.tx.phase <;> decide
  rcases s.txByte_cases (txGoal s.tx.phase) with ⟨h, -⟩ | ⟨-, -, -, e⟩ | ⟨-, -, h, -⟩ | ⟨-, h, -⟩
  · exact absurd h notCan
  · exact e
  · exact absurd rfl h
  · exact absurd accepted h

/-- Another accepted byte ends the attempt (R234, R247). -/
theorem State.txByte_repeats {s : State} {b : Byte} (accepted : b ∈ txAccept s.tx.phase) (other : b ≠ txGoal s.tx.phase) :
    s.txByte b = .next s.txRetry := by
  have notCan : b ≠ 0x18#8 := by rintro rfl; revert accepted; cases s.tx.phase <;> decide
  rcases s.txByte_cases b with ⟨h, -⟩ | ⟨-, -, h, -⟩ | ⟨-, -, -, e⟩ | ⟨-, h, -⟩
  · exact absurd h notCan
  · exact absurd h other
  · exact e
  · exact absurd accepted h

/-- A byte outside the accept set is dropped (R232). -/
theorem State.txByte_dropped {s : State} {b : Byte} (notCan : b ≠ 0x18#8) (outside : b ∉ txAccept s.tx.phase) :
    s.txByte b = .next s.txTimeTest := by
  rcases s.txByte_cases b with ⟨h, -⟩ | ⟨-, h, -⟩ | ⟨-, h, -⟩ | ⟨-, -, e⟩
  · exact absurd h notCan
  · exact absurd h outside
  · exact absurd h outside
  · exact e

/-- The state after one LinkGet of the wait (R232). -/
def State.afterGet (s : State) : State := { s with env := (s.env.get s.cfg.charTimeout).2 }

theorem step_wait_eof {s : State} (inRun : s.tx.phase ≠ .txIdle) (hw : s.tx.waiting = true)
    (read : (s.env.get s.cfg.charTimeout).1 = none) : step s = .next s.afterGet.txTimeTest := by
  rw [step_wait s inRun hw, read]
  rfl

theorem step_wait_byte {s : State} (inRun : s.tx.phase ≠ .txIdle) (hw : s.tx.waiting = true) {b : Byte}
    (read : (s.env.get s.cfg.charTimeout).1 = some b) : step s = s.afterGet.txByte b := by
  rw [step_wait s inRun hw, read]
  rfl

/-- No wait accepts a byte that is none of the one-byte symbols (R102, R232). -/
theorem txAccept_subset (p : TxPhase) : txAccept p ⊆ [0x06#8, 0x15#8, 0x43#8] := by
  cases p <;> decide

/-- Settles O6. -/
theorem stepRunsSymbolInWait : Obligations.StepRunsSymbolInWait := by
  intro s inRun hw r tested
  have timed : s.afterGet.txTimeTest = tested := State.txTimeTest_eq (s := s.afterGet) hw
  refine ⟨fun b i read hd => ?_, fun read => ?_, fun b read hother => ?_⟩
  · have atByte : awaits s.afterGet s.tx.phase := ⟨rfl, inRun, hw⟩
    exact (step_wait_byte inRun hw read).trans (exec_symbol_awaits atByte hd).symm
  · rw [step_wait_eof inRun hw read, timed]
  · simp only [List.mem_cons, List.not_mem_nil, or_false, not_or] at hother
    obtain ⟨-, notAck, notNak, notCan, notC⟩ := hother
    have outside : b ∉ txAccept s.tx.phase := fun h => by
      have := txAccept_subset _ h
      simp [notAck, notNak, notC] at this
    rw [step_wait_byte inRun hw read, ← timed]
    exact State.txByte_dropped notCan outside

/-- Settles O50: the symbol read is not in the phase's accept set. -/
theorem otherSymbolIsDropped : Obligations.OtherSymbolIsDropped := by
  intro s p i hwait hother
  have ⟨hp, _, hw⟩ := hwait
  rw [← State.txTimeTest_eq hw]
  have drops : ∀ b, decodeWire [b] = .ok (i, []) → b ≠ 0x18#8 → b ∉ txAccept p → exec i s = .next s.txTimeTest := by
    intro b hd notCan outside
    rw [exec_symbol_awaits hwait hd]
    exact State.txByte_dropped notCan (hp ▸ outside)
  rcases hother with rfl | ⟨rfl, hphase⟩ | ⟨rfl | rfl, hphase⟩ | ⟨rfl, rfl⟩
  · exact drops 0x04#8 rfl (by decide) (by cases p <;> decide)
  · exact drops 0x43#8 rfl (by decide) (by revert hphase; cases p <;> decide)
  · exact drops 0x06#8 rfl (by decide) (by revert hphase; cases p <;> decide)
  · exact drops 0x15#8 rfl (by decide) (by revert hphase; cases p <;> decide)
  · exact drops 0x06#8 rfl (by decide) (by decide)

/-! ### The next step of the procedure (R230) -/

theorem State.txAdvance_waitC1 {s : State} (h : s.tx.phase = .waitC1) : s.txAdvance = s.txBuildHeader := by
  unfold State.txAdvance; rw [h]

theorem State.txAdvance_waitC2 {s : State} (h : s.tx.phase = .waitC2) :
    s.txAdvance = .next { s with tx := { s.tx with seq := 1#8, off := 0#32 } }.txNextData := by
  unfold State.txAdvance; rw [h]

theorem State.txAdvance_data {s : State} (h : s.tx.phase = .data) :
    s.txAdvance = .next { s with tx := { s.tx with
      seq := s.tx.seq + 1#8, off := s.tx.off + BitVec.ofNat 32 s.txPacket.2 } }.txNextData := by
  unfold State.txAdvance; rw [h]

/-- The phases that only lead to the next one. -/
theorem State.txAdvance_enters {s : State} {p p' : TxPhase} (h : s.tx.phase = p)
    (hp : (p, p') ∈ [(TxPhase.header, TxPhase.waitC2), (.eotA, .eotB), (.eotB, .waitC3), (.waitC3, .closing)]) :
    s.txAdvance = .next (s.txEnter p') := by
  unfold State.txAdvance
  rw [h]
  simp only [List.mem_cons, Prod.mk.injEq, List.not_mem_nil, or_false] at hp
  rcases hp with ⟨rfl, rfl⟩ | ⟨rfl, rfl⟩ | ⟨rfl, rfl⟩ | ⟨rfl, rfl⟩ <;> rfl

theorem State.txAdvance_closing {s : State} (h : s.tx.phase = .closing) : s.txAdvance = .next (s.txEnd true) := by
  unfold State.txAdvance; rw [h]

theorem State.txNextData_eq (s : State) : s.txNextData = s.txEnter (if s.tx.off.toNat < s.tx.size then .data else .eotA) := by
  rcases s.txNextData_cases with ⟨h, e⟩ | ⟨h, e⟩
  · rw [e, if_pos h]
  · rw [e, if_neg h.not_gt]

/-- A symbol that is the byte its phase waits for begins the next step of R230. -/
theorem exec_goal {s : State} {p : TxPhase} (hwait : awaits s p) {i : Instr} (h : decodeWire [txGoal p] = .ok (i, [])) :
    exec i s = s.txAdvance := by
  have ⟨hp, inRun, _⟩ := hwait
  subst hp
  rw [exec_symbol_awaits hwait h, State.txByte_goal inRun]

/-- Settles O46. -/
theorem waitForCSucceeds : Obligations.WaitForCSucceeds := by
  intro s p hwait hphase fits
  have ⟨hp, _⟩ := hwait
  rcases hphase with rfl | rfl | rfl <;> rw [exec_goal hwait rfl]
  · refine ⟨_, (State.txAdvance_waitC1 hp).trans (State.txBuildHeader_of_le fits), sameReceiver_refl s, rfl, rfl, rfl,
      fun _ => ⟨rfl, fun a => ?_⟩, nofun, nofun⟩
    show (s.txbuf.write 0 (headerText s.tx.name s.tx.size)).read a = _
    rw [Memory.read_write]
    simp [headerText]
  · rw [State.txAdvance_waitC2 hp, State.txNextData_eq]
    exact ⟨_, rfl, sameReceiver_refl s, rfl, rfl, rfl, nofun, fun _ => ⟨rfl, rfl⟩, nofun⟩
  · exact ⟨_, State.txAdvance_enters hp (by decide), sameReceiver_refl s, rfl, rfl, rfl,
      nofun, nofun, fun _ => ⟨rfl, rfl⟩⟩

/-- Settles O47. -/
theorem ackAdvancesTheRun : Obligations.AckAdvancesTheRun := by
  intro s p hwait hphase m off'
  have ⟨hp, _⟩ := hwait
  have sent : s.txPacket.2 = m := by
    rcases s.txPacket_cases with ⟨large, e⟩ | ⟨small, e⟩
    · rw [e]; exact (if_pos large).symm
    · rw [e]; exact (if_neg small).symm
  simp only [List.mem_cons, List.not_mem_nil, or_false] at hphase
  rcases hphase with rfl | rfl | rfl | rfl <;> rw [exec_goal hwait rfl]
  · exact ⟨_, State.txAdvance_enters hp (by decide), sameReceiver_refl s, rfl, rfl, rfl,
      fun _ => ⟨rfl, rfl⟩, nofun, nofun, nofun⟩
  · rw [State.txAdvance_data hp, State.txNextData_eq, sent]
    exact ⟨_, rfl, sameReceiver_refl s, rfl, rfl, rfl, nofun, fun _ => ⟨rfl, rfl⟩, nofun, nofun⟩
  · exact ⟨_, State.txAdvance_enters hp (by decide), sameReceiver_refl s, rfl, rfl, rfl,
      nofun, nofun, fun _ => ⟨rfl, rfl⟩, nofun⟩
  · exact ⟨_, State.txAdvance_closing hp, sameReceiver_refl s, rfl, rfl, rfl, nofun, nofun, nofun, fun _ => ⟨rfl, rfl⟩⟩

/-- Settles O48. -/
theorem nakInAWait : Obligations.NakInAWait := by
  intro s p hwait hphase
  have ⟨hp, _⟩ := hwait
  by_cases hA : p = .eotA
  · subst hA
    rw [exec_goal hwait rfl]
    exact ⟨_, State.txAdvance_enters hp (by decide), sameReceiver_refl s, rfl, rfl, rfl, rfl, rfl⟩
  · subst hp
    rw [if_neg hA, exec_symbol_awaits hwait (b := 0x15#8) rfl]
    have accepted : 0x15#8 ∈ txAccept s.tx.phase := by revert hphase; cases s.tx.phase <;> decide
    have other : 0x15#8 ≠ txGoal s.tx.phase := by revert hphase hA; cases s.tx.phase <;> decide
    exact ⟨_, State.txByte_repeats accepted other, sameReceiver_refl s, rfl, rfl, rfl, rfl, rfl⟩

end Sys2Proof.Machine

/-! # 43_sender.md: what every step of a run keeps, and a run with a silent peer

What a step of a run can have done is said once, in `RunNext`; the ports it used (R252) and the phase it left (R230) are read
off case by case. A silent peer makes a turn of two steps of every header attempt, and the turns are counted by induction on the
attempts that are left (R253). -/

namespace Sys2Proof.Machine

/-! ### The order of the phases (R230) -/

/-- `p'` is the phase that follows `p` in R230 when `b` is read, with `r` on the result port then; the data phase follows itself
while bytes remain (R243). -/
inductive Follows : TxPhase → Byte → TxPhase → Result → Prop where
  | header (r : Result) : Follows .waitC1 0x43#8 .header r
  | waitC2 (r : Result) : Follows .header 0x06#8 .waitC2 r
  | firstData (r : Result) : Follows .waitC2 0x43#8 .data r
  | noData (r : Result) : Follows .waitC2 0x43#8 .eotA r
  | nextData (r : Result) : Follows .data 0x06#8 .data r
  | eotA (r : Result) : Follows .data 0x06#8 .eotA r
  | eotB (r : Result) : Follows .eotA 0x15#8 .eotB r
  | waitC3 (r : Result) : Follows .eotB 0x06#8 .waitC3 r
  | closing (r : Result) : Follows .waitC3 0x43#8 .closing r
  | done : Follows .closing 0x06#8 .txIdle (.send true)

/-- The byte a phase waits for begins the phase that follows it, and no port is touched. -/
theorem State.txAdvance_next {s t : State} (inRun : s.tx.phase ≠ .txIdle) (h : s.txAdvance = .next t) :
    t.env = s.env ∧ Follows s.tx.phase (txGoal s.tx.phase) t.tx.phase t.result := by
  cases hp : s.tx.phase
  case txIdle => exact absurd hp inRun
  case waitC1 =>
    rw [State.txAdvance_waitC1 hp, State.txBuildHeader] at h
    split at h <;> cases h
    exact ⟨rfl, .header _⟩
  case header => rw [State.txAdvance_enters (p' := .waitC2) hp (by decide)] at h; cases h; exact ⟨rfl, .waitC2 _⟩
  case waitC2 =>
    rw [State.txAdvance_waitC2 hp, State.txNextData_eq] at h
    cases h
    refine ⟨rfl, ?_⟩
    rw [State.txEnter_tx_phase]
    split
    · exact .firstData _
    · exact .noData _
  case data =>
    rw [State.txAdvance_data hp, State.txNextData_eq] at h
    cases h
    refine ⟨rfl, ?_⟩
    rw [State.txEnter_tx_phase]
    split
    · exact .nextData _
    · exact .eotA _
  case eotA => rw [State.txAdvance_enters (p' := .eotB) hp (by decide)] at h; cases h; exact ⟨rfl, .eotB _⟩
  case eotB => rw [State.txAdvance_enters (p' := .waitC3) hp (by decide)] at h; cases h; exact ⟨rfl, .waitC3 _⟩
  case waitC3 => rw [State.txAdvance_enters (p' := .closing) hp (by decide)] at h; cases h; exact ⟨rfl, .closing _⟩
  case closing => rw [State.txAdvance_closing hp] at h; cases h; exact ⟨rfl, .done⟩

/-! ### What a step of a run can do -/

/-- What an attempt sends before its wait: nothing, one EOT, or a whole frame and a flush (R233, R234, R241). -/
inductive Sends (s : State) : Env → Half → Prop where
  | nothing : Sends s s.env s.crcAcc
  | eot : Sends s (s.env.put 0x04#8) s.crcAcc
  | frame {header : Byte} {n : Nat} (size : payloadSize header = some n) (seq fill : Byte) (payload : List Byte) :
      Sends s (s.env.puts (encodedFrame header seq fill n payload)).flush (trailerCrc n fill payload)

/-- The state `t` is what a step of a run leads to from `s`. -/
inductive RunNext (s : State) : State → Prop where
  /-- The attempts are used up (R250). -/
  | exhausted : RunNext s (s.txEnd false)
  | attempt {sent : Env} {acc : Half} (sends : Sends s sent acc) : RunNext s (s.attempted sent acc)
  /-- The wait read a CAN (R251). -/
  | cancelled : RunNext s (s.afterGet.txEnd false)
  /-- The wait read the byte its phase waits for (R230). -/
  | advanced {t : State} (waiting : s.tx.waiting = true)
      (read : (s.env.get s.cfg.charTimeout).1 = some (txGoal s.tx.phase)) (env : t.env = s.afterGet.env)
      (follows : Follows s.tx.phase (txGoal s.tx.phase) t.tx.phase t.result) : RunNext s t
  /-- The wait read another byte that ends the attempt (R234, R247). -/
  | repeated : RunNext s s.afterGet.txRetry
  /-- The wait read nothing, or a byte it drops (R232). -/
  | tested : RunNext s s.afterGet.txTimeTest

/-- The data packet's header byte selects a payload size (R242). -/
theorem State.txPacket_payloadSize (s : State) : ∃ n, payloadSize s.txPacket.1 = some n := by
  rcases s.txPacket_cases with ⟨-, e⟩ | ⟨-, e⟩ <;> rw [e]
  · exact ⟨1024, rfl⟩
  · exact ⟨128, rfl⟩

theorem State.txBegin_next {s t : State} (inRun : s.tx.phase ≠ .txIdle) (h : s.txBegin = .next t) : RunNext s t := by
  rcases s.txBegin_cases inRun with ⟨-, e⟩ | ⟨-, ⟨-, e⟩ | ⟨-, e⟩ | ⟨-, e⟩ | ⟨-, e⟩ | ⟨-, -, e⟩ | ⟨-, -, e⟩⟩ <;>
    rw [e] at h <;> cases h
  · exact .exhausted
  · exact .attempt .nothing
  · rw [State.txCount_put_txArm]; exact .attempt .eot
  · rw [State.txCount_sendFramed]; exact .attempt (.frame rfl ..)
  · rw [State.txCount_sendFramed]; exact .attempt (.frame rfl ..)
  · obtain ⟨n, size⟩ := s.txPacket_payloadSize
    rw [State.txCount_sendFramed, size]
    exact .attempt (.frame size ..)

theorem step_run_next {s t : State} (inRun : s.tx.phase ≠ .txIdle) (h : step s = .next t) : RunNext s t := by
  cases hw : s.tx.waiting with
  | false =>
    rw [step_begin s inRun hw] at h
    exact State.txBegin_next inRun h
  | true =>
    cases read : (s.env.get s.cfg.charTimeout).1 with
    | none => rw [step_wait_eof inRun hw read] at h; cases h; exact .tested
    | some b =>
      rw [step_wait_byte inRun hw read] at h
      rcases s.afterGet.txByte_cases b with ⟨-, e⟩ | ⟨-, -, goal, e⟩ | ⟨-, -, -, e⟩ | ⟨-, -, e⟩
      · cases e.symm.trans h; exact .cancelled
      · obtain ⟨env, follows⟩ := State.txAdvance_next (s := s.afterGet) inRun (e.symm.trans h)
        exact .advanced hw (read.trans (congrArg some goal)) env follows
      · cases e.symm.trans h; exact .repeated
      · cases e.symm.trans h; exact .tested

/-! ### The ports of a run (R252) -/

/-- What a step of a run may put on the link: nothing, one EOT, or one whole frame (R90, R252). -/
def SenderUnit (bytes : List Byte) : Prop :=
  bytes = [] ∨ bytes = [0x04#8] ∨
    ∃ h rest, bytes = h :: rest ∧ ((h = 0x01#8 ∧ rest.length = 132) ∨ (h = 0x02#8 ∧ rest.length = 1028))

/-- The step from `s` to `t` used the sender's ports only, and put at most one of its units. -/
def SenderRecord (s t : State) : Prop :=
  ∃ calls, t.env.trace = s.env.trace ++ calls ∧ calls.all senderMay = true ∧ SenderUnit (putsOf calls)

/-- A frame of either format is one of the sender's units (R90). -/
theorem senderUnit_encodedFrame {header : Byte} {n : Nat} (size : payloadSize header = some n) (seq fill : Byte)
    (payload : List Byte) : SenderUnit (encodedFrame header seq fill n payload) := by
  have length := encodedFrame_length header seq fill n payload
  refine .inr (.inr ⟨header, _, rfl, ?_⟩)
  rw [encodedFrame, frameBytes, List.length_cons] at length
  rcases (payloadSize_eq_some_iff header n).1 size with ⟨hb, hn⟩ | ⟨hb, hn⟩
  · exact .inl ⟨hb, by omega⟩
  · exact .inr ⟨hb, by omega⟩

/-- A LinkGet and nothing put. -/
theorem SenderRecord.of_get {s t : State} (h : t.env = s.afterGet.env) : SenderRecord s t :=
  ⟨[.get s.cfg.charTimeout (s.env.get s.cfg.charTimeout).1], by rw [h]; exact Env.get_trace _ _, rfl, .inl rfl⟩

theorem Sends.record {s : State} {sent : Env} {acc : Half} (h : Sends s sent acc) : SenderRecord s (s.attempted sent acc) := by
  cases h with
  | nothing => exact ⟨[.tick s.env.readTick.1], rfl, rfl, .inl rfl⟩
  | eot => exact ⟨[.put 0x04#8, .tick (s.env.put 0x04#8).readTick.1], by simp [State.attempted], rfl, .inr (.inl rfl)⟩
  | @frame header n size seq fill payload =>
    refine ⟨(encodedFrame header seq fill n payload).map .put ++ [.flush, .tick s.env.readTick.1], by simp [State.attempted],
      by simp [senderMay], ?_⟩
    rw [putsOf_append, putsOf_map_put]
    simpa [putsOf] using senderUnit_encodedFrame size seq fill payload

theorem RunNext.record {s t : State} (h : RunNext s t) : SenderRecord s t := by
  cases h with
  | exhausted => exact ⟨[], by simp, rfl, .inl rfl⟩
  | attempt sends => exact sends.record
  | cancelled => exact .of_get rfl
  | advanced _ _ env _ => exact .of_get env
  | repeated => exact .of_get rfl
  | tested =>
    obtain ⟨w, e⟩ := s.afterGet.txTimeTest_frame
    rw [e]
    exact ⟨[.get s.cfg.charTimeout (s.env.get s.cfg.charTimeout).1, .tick s.afterGet.env.readTick.1],
      by simp [State.afterGet], rfl, .inl rfl⟩

/-- Settles O58. -/
theorem senderPortDiscipline : Obligations.SenderPortDiscipline := by
  intro s t inRun h
  obtain ⟨calls, trace, allowed, unit⟩ := (step_run_next inRun h).record
  exact ⟨calls, trace, allowed, step_run_sameReceiver inRun h, unit⟩

/-! ### The phases a run goes through (R230) -/

/-- The steps that leave a phase, as R230 lists them. -/
theorem Follows.order {p p' : TxPhase} {b : Byte} {r : Result} (h : Follows p b p' r) (changed : p' ≠ p) :
    (p = .waitC1 ∧ p' = .header ∧ b = 0x43#8) ∨ (p = .header ∧ p' = .waitC2 ∧ b = 0x06#8) ∨
    (p = .waitC2 ∧ (p' = .data ∨ p' = .eotA) ∧ b = 0x43#8) ∨ (p = .data ∧ p' = .eotA ∧ b = 0x06#8) ∨
    (p = .eotA ∧ p' = .eotB ∧ b = 0x15#8) ∨ (p = .eotB ∧ p' = .waitC3 ∧ b = 0x06#8) ∨
    (p = .waitC3 ∧ p' = .closing ∧ b = 0x43#8) ∨ (p = .closing ∧ p' = .txIdle ∧ b = 0x06#8 ∧ r = .send true) := by
  cases h with
  | nextData => exact absurd rfl changed
  | _ => simp

/-- Settles O59: of the steps of `RunNext` only a failure and the awaited byte leave the phase. -/
theorem runFollowsTheProcedure : Obligations.RunFollowsTheProcedure := by
  intro s t inRun h changed
  cases step_run_next inRun h with
  | exhausted | cancelled => exact .inl ⟨rfl, rfl⟩
  | attempt | repeated => exact absurd rfl changed
  | tested =>
    obtain ⟨w, e⟩ := s.afterGet.txTimeTest_frame
    rw [e] at changed
    exact absurd rfl changed
  | advanced waiting read env follows =>
    have trace : t.env.trace = s.env.trace ++ [.get s.cfg.charTimeout (some (txGoal s.tx.phase))] := by
      rw [env, ← read]
      exact Env.get_trace _ _
    exact .inr ⟨_, _, trace, rfl, waiting, follows.order changed⟩

/-! ### A silent peer (R253) -/

/-- Before an attempt of the header step with `k` attempts left: a silent peer, and waits that expire at their first time
test. -/
structure SilentHeader (d : BitVec 31) (k : Nat) (s : State) : Prop where
  sound : Sound s
  phase : s.tx.phase = .header
  waiting : s.tx.waiting = false
  budget : s.tx.attempt.toNat + k = s.par.txRetryLimit.toNat
  silent : s.env.linkIn = []
  expires : s.cfg.ackTimeout.toNat ≤ d.toNat
  ticks : ∃ more, s.env.advances = List.replicate (2 * k) d ++ more
  arrivals : ∃ more, s.env.arrivals = List.replicate k [] ++ more

/-- The Tick's answer and the script after it. -/
theorem Env.readTick_of_advances {e : Env} {d : BitVec 31} {rest : List (BitVec 31)} (h : e.advances = d :: rest) :
    (e.readTick.1 - e.tick).toNat = d.toNat ∧ e.readTick.2.advances = rest := by
  rw [e.readTick_scripted h]
  refine ⟨?_, rfl⟩
  rw [add_sub_cancel_left, BitVec.toNat_setWidth_of_le (by decide)]

/-- The first time test of a wait that reads EOF, when its timeout has passed. -/
theorem step_wait_expires {s : State} {d : BitVec 31} {ticks : List (BitVec 31)} {batches : List (List Byte)}
    (inRun : s.tx.phase ≠ .txIdle) (waiting : s.tx.waiting = true) (silent : s.env.linkIn = [])
    (armed : s.tx.t0 = s.env.tick) (expires : s.cfg.ackTimeout.toNat ≤ d.toNat) (hticks : s.env.advances = d :: ticks)
    (hbatches : s.env.arrivals = [] :: batches) :
    ∃ u now, step s = .next u ∧ u.tx = { s.tx with waiting := false } ∧ u.par = s.par ∧ u.cfg = s.cfg ∧
      u.env.trace = s.env.trace ++ [.get s.cfg.charTimeout none, .tick now] ∧
      u.env.linkIn = [] ∧ u.env.advances = ticks ∧ u.env.arrivals = batches := by
  have eof := Env.get_empty silent hbatches s.cfg.charTimeout
  obtain ⟨-, tested, -⟩ := stepRunsSymbolInWait s inRun waiting
  obtain ⟨passed, rest⟩ := Env.readTick_of_advances (e := (s.env.get s.cfg.charTimeout).2)
    ((Env.get_advances _ _).trans hticks)
  rw [Env.get_tick, ← armed] at passed
  refine ⟨_, (s.env.get s.cfg.charTimeout).2.readTick.1, tested (by rw [eof]), ?_, rfl, rfl, ?_, ?_, rest, ?_⟩
  · simp [passed, expires]
  · rw [Env.readTick_trace, Env.get_trace, List.append_assoc, congrArg Prod.fst eof]
    rfl
  · simp [eof, silent]
  · simp [eof]

/-- Within the budget TX_ATTEMPT counts without wrapping (R36, D26). -/
theorem State.attempt_succ_toNat (s : State) (left : s.tx.attempt.toNat < s.par.txRetryLimit.toNat) :
    (s.tx.attempt + 1#8).toNat = s.tx.attempt.toNat + 1 := by
  have := s.par.txRetryLimit.isLt
  simp only [BitVec.toNat_add, BitVec.toNat_ofNat]
  omega

theorem count_flush_map_put (bytes : List Byte) : (bytes.map PortCall.put).count .flush = 0 :=
  List.count_eq_zero.2 (by simp)

/-- One attempt and its wait: the header frame, flushed, and nothing else put; one attempt less is left. -/
theorem SilentHeader.turn {d : BitVec 31} {k : Nat} {s : State} (h : SilentHeader d (k + 1) s) :
    ∃ u calls, (∀ n, Sys2Proof.core.run (n + 2) s = Sys2Proof.core.run n u) ∧ SilentHeader d k u ∧
      u.attemptFrame = s.attemptFrame ∧ u.env.trace = s.env.trace ++ calls ∧ putsOf calls = s.attemptFrame ∧
      calls.count .flush = 1 := by
  obtain ⟨ticks, hticks⟩ := h.ticks
  obtain ⟨batches, hbatches⟩ := h.arrivals
  have left : s.tx.attempt.toNat < s.par.txRetryLimit.toNat := by have := h.budget; omega
  have sends : step s = .next (s.framed s.attemptFrame) := h.sound.step_framed h.waiting left (by simp [h.phase])
  obtain ⟨-, afterSend⟩ := Env.readTick_of_advances (e := (s.env.puts s.attemptFrame).flush)
    (rest := d :: (List.replicate (2 * k) d ++ ticks)) hticks
  obtain ⟨u, now, waits, htx, hpar, hcfg, htrace, hin, hadv, harr⟩ :=
    step_wait_expires (s := s.framed s.attemptFrame) (by rw [show (s.framed _).tx.phase = _ from h.phase]; decide) rfl
      ((Env.readTick_linkIn _).trans h.silent) (by simp [State.framed, State.attempted]) h.expires afterSend
      ((Env.readTick_arrivals _).trans hbatches)
  have sound : Sound u := stepKeepsInvariant _ _ (stepKeepsInvariant _ _ h.sound sends) waits
  have counted : u.tx.attempt.toNat = s.tx.attempt.toNat + 1 := by rw [htx]; exact s.attempt_succ_toNat left
  have header : u.tx.phase = .header := by rw [htx]; exact h.phase
  have sameFrame : u.attemptFrame = s.attemptFrame := by
    rw [State.attemptFrame_header header, State.attemptFrame_header h.phase, htx]
    rfl
  refine ⟨u, s.attemptFrame.map .put ++ [.flush, .tick s.env.readTick.1, .get s.cfg.charTimeout none, .tick now],
    fun n => (run_succ _ sends).trans (run_succ _ waits),
    ⟨sound, header, ?_, ?_, hin, ?_, ⟨_, hadv⟩, ⟨_, harr⟩⟩, sameFrame, ?_, ?_, ?_⟩
  · rw [htx]
  · rw [counted, hpar]
    have := h.budget
    show _ = s.par.txRetryLimit.toNat
    omega
  · rw [hcfg]; exact h.expires
  · rw [htrace, State.framed_trace, List.append_assoc, List.append_assoc]
    rfl
  · rw [putsOf_append, putsOf_map_put]
    simp [putsOf]
  · rw [List.count_append, count_flush_map_put]
    rfl

/-- The turns until the attempts are used up, then the failure (R250). -/
theorem SilentHeader.fails {d : BitVec 31} {k : Nat} {s : State} (h : SilentHeader d k s) :
    ∃ t calls, Sys2Proof.core.run (2 * k + 1) s = .next t ∧ t.tx.phase = .txIdle ∧ t.result = .send false ∧
      t.env.trace = s.env.trace ++ calls ∧ putsOf calls = (List.replicate k s.attemptFrame).flatten ∧
      calls.count .flush = k := by
  induction k generalizing s with
  | zero =>
    have used : step s = _ := exhaustedBudgetFails s (by simp [h.phase]) h.waiting (by have := h.budget; omega)
    exact ⟨_, [], run_succ 0 used, rfl, rfl, by simp, rfl, rfl⟩
  | succ k ih =>
    obtain ⟨u, turn, runs, left, sameFrame, trace, puts, flushes⟩ := h.turn
    obtain ⟨t, later, runs', idle, failed, trace', puts', flushes'⟩ := ih left
    refine ⟨t, turn ++ later, (runs (2 * k + 1)).trans runs', idle, failed, ?_, ?_, ?_⟩
    · rw [trace', trace, List.append_assoc]
    · rw [putsOf_append, puts, puts', sameFrame]
      rfl
    · rw [List.count_append, flushes, flushes', Nat.add_comm]

/-- Settles O60: all of the attempts are left when the header step begins. -/
theorem silentPeerFailsAfterHeaderRetries : Obligations.SilentPeerFailsAfterHeaderRetries := by
  intro s d moreTicks moreIn sound phase fresh waiting silent expires ticks batches
  have start : SilentHeader d s.par.txRetryLimit.toNat s :=
    ⟨sound, phase, waiting, by simp [fresh], silent, expires, ⟨_, ticks⟩, ⟨_, batches⟩⟩
  rw [← State.attemptFrame_header phase]
  exact start.fails

end Sys2Proof.Machine

/-! # 60_exceptions.md: the terminal action

The pre-terminal states RecvErr and RecvTerm do not poll: the RX_STEP that finds one of them is its Tick() and then
`State.terminalAction_eq` (R281), so the link is not read. -/

namespace Sys2Proof.Machine

/-- An RX_STEP in a pre-terminal state delivers. -/
theorem State.rxStep_preTerminal {s : State} (h : s.rx.state = .recvErr ∨ s.rx.state = .recvTerm) :
    s.rxStep = s.latchTick.terminalAction := by
  unfold State.rxStep
  rcases h with h | h <;> rw [h]

/-- The Tick(), bytes put and OnFinish, in that order, with nothing read. -/
theorem did_tick_puts_onFinish {s t : State} {bs : List Byte} {r : Reason}
    (h : t.env = (s.env.readTick.2.puts bs).onFinish r) :
    did s t (.tick s.env.readTick.1 :: (bs.map .put ++ [.onFinish r])) := by
  simp [did, h, putsOf, putsOf_append, putsOf_map_put]

/-- Settles O32: the terminal action is one record update on the state after the Tick(). -/
theorem terminalActionDelivers : Obligations.TerminalActionDelivers := by
  intro s st hl pre
  have ⟨_, _, hst⟩ := hl
  have answer := exec_rxStep hl
  rw [State.rxStep_preTerminal (hst ▸ pre), State.terminalAction_eq] at answer
  exact ⟨_, answer, rfl, rxbufCleared_of_zeroBelow rfl, did_tick_puts_onFinish (bs := List.replicate 5 0x18#8) rfl,
    Env.readTick_linkIn _, Env.readTick_arrivals _, Env.readTick_requests _, rfl, rfl, sameSetting_refl s⟩

end Sys2Proof.Machine

/-! # 70_reset_and_hazards.md: what is refused

Each refusal is one test of an operation's meaning, and the tests come in a fixed order: an INIT has completed (R312), no run is
in progress (`State.free`, R320), then the operation's own domain (R313, R237). -/

namespace Sys2Proof.Machine

/-- During a SEND_FILE run no host operation is admitted (R320). -/
theorem State.free_of_run {s : State} (hrun : s.tx.phase ≠ .txIdle) (k : Out) : s.free k = .refused .busy := if_neg hrun

/-- INIT outside a run, with an operand out of range (R313). -/
theorem execInit_of_illegal {s : State} (outside : s.tx.phase = .txIdle) {st tk ct : Word} {u : Nat} {rs ts : Half}
    (illegal : ¬ configLegal st tk ct u rs ts = true) :
    execInit st tk ct u rs ts s = .refused .badConfiguration := by
  rw [execInit, State.free_of_txIdle outside, if_neg illegal]

/-- RX_STEP after an INIT is subject to admission (R320). -/
theorem execRxStep_of_inited {s : State} (inited : s.inited = true) : execRxStep s = s.free s.rxStep := if_pos inited

/-- RX_STEP before the first INIT (R312). -/
theorem execRxStep_of_not_inited {s : State} (fresh : s.inited = false) : execRxStep s = .refused .notInitialised :=
  if_neg (Bool.eq_false_iff.1 fresh)

/-- SEND_FILE after an INIT is subject to admission; admitted, it tests RX_STATE, then its operands (R320, R237). -/
theorem execSendFile_of_inited {s : State} (inited : s.inited = true) (name : List Byte) (size : Nat) (file : List Byte) :
    execSendFile name size file s =
      s.free (if s.rx.state = .idle then
        if admissible s.par.filesizeLimit name size file then .next (s.beginSend name size file)
        else .refused .inadmissible
      else .refused .notIdle) :=
  if_pos inited

/-- SEND_FILE before the first INIT (R312). -/
theorem execSendFile_of_not_inited {s : State} (fresh : s.inited = false) (name : List Byte) (size : Nat)
    (file : List Byte) : execSendFile name size file s = .refused .notInitialised :=
  if_neg (Bool.eq_false_iff.1 fresh)

/-- Settles O24: each disjunct contradicts one range of `configLegal_iff`. -/
theorem initRefusesIllegalOperands : Obligations.InitRefusesIllegalOperands := by
  intro s st tk ct u rs ts outside outOfRange
  have illegal : ¬ configLegal st tk ct u rs ts = true := by
    rw [configLegal_iff]
    omega
  exact execInit_of_illegal outside illegal

/-- Settles O25: both operations test for an INIT first, so a run in progress does not matter here. -/
theorem noSessionBeforeInit : Obligations.NoSessionBeforeInit :=
  fun _ name file size fresh => ⟨execRxStep_of_not_inited fresh, execSendFile_of_not_inited fresh name size file⟩

/-- Settles O26: past the test of R312, which RX_STEP and SEND_FILE make, every host operation is subject to admission. -/
theorem overlappingOperationsRefused : Obligations.OverlappingOperationsRefused := by
  intro s i inited hrun host
  cases i with
  | soh | stx | eot | ack | nak | can | c => cases host
  | rxStep => exact (execRxStep_of_inited inited).trans (State.free_of_run hrun _)
  | sendFile name size file => exact (execSendFile_of_inited inited name size file).trans (State.free_of_run hrun _)
  | init | crc16 | validate | encode => exact State.free_of_run hrun _

/-- Settles O42: outside Idle the operands are not looked at; in Idle each disjunct contradicts one condition of
`admissible_iff`. -/
theorem sendFileRefused : Obligations.SendFileRefused := by
  intro s name file size inited outside
  have answer := (execSendFile_of_inited inited name size file).trans (State.free_of_txIdle outside _)
  constructor
  · intro notIdle
    exact answer.trans (if_neg notIdle)
  · intro idle broken
    have inadmissible : ¬ admissible s.par.filesizeLimit name size file = true := by
      rw [admissible_iff]
      rintro ⟨noNul, pos, small, short, given⟩
      rcases broken with nul | _ | _ | _ | _
      · exact noNul nul
      all_goals omega
    exact answer.trans ((if_pos idle).trans (if_neg inadmissible))

end Sys2Proof.Machine
